-- ==== Sys2Proof/Word.lean ====
section
/-! DEFINITION. The bit-vector widths of the SDES-CORE (spec/00_scope.md rules R6, R7, R9). -/

namespace Sys2Proof

/-- A bus word, 32 bits (R7, R77): `wdata`, `rdata` and a command word. -/
abbrev Word := BitVec 32

/-- A byte offset into the 8192-byte window, 13 bits (R7, R70). -/
abbrev Offset := BitVec 13

/-- A master key, KEY_W = 10 bits (R6). -/
abbrev Key := BitVec 10

/-- A plaintext block, a ciphertext block or a subkey, BLOCK_W = SUBKEY_W = 8 bits (R6). -/
abbrev Block := BitVec 8

/-- A half-block, HALF_W = 4 bits (R6). -/
abbrev Half := BitVec 4

/-- A half of the permuted key, KEYHALF_W = 5 bits (R6). -/
abbrev KeyHalf := BitVec 5

/-- An S-box output, SBOX_OUT_W = 2 bits (R6). -/
abbrev Pair := BitVec 2

/-- KEYSPACE (R6): the number of keys the scanner enumerates, and the depth of MATCH (R7). -/
abbrev keyspace : Nat := 1024

end Sys2Proof
end

