-- ==== Sys2Proof/Config.lean ====
section
/-! DEFINITION. What is fixed for the life of the hardware: the open parameters of spec/00_scope.md
rule R8 as one record, and the one value the spec leaves free. The default contents of the tables
stand in Machine/Tables.lean. -/

namespace Sys2Proof

/-- A permutation table from `m` input positions to `n` output positions (R48 (a), (b)). Entry `q - 1`
is the source of output position `q`, held as D00's 1-based position less one, so that an entry
outside the input's width cannot be written down (R128). -/
abbrev PermTable (m n : Nat) := Vector (Fin m) n

/-- An S-box: a 4 by 4 grid of 2-bit values, the first index the row (R47, R48 (e), R126). -/
abbrev SBox := Vector (Vector Pair 4) 4

/-- The configuration record TABLES (R8, R40): the six permutation tables and the two S-boxes. -/
structure Tables where
  p10 : PermTable 10 10
  p8 : PermTable 10 8
  ip : PermTable 8 8
  ipinv : PermTable 8 8
  ep : PermTable 4 8
  p4 : PermTable 4 4
  sbox1 : SBox
  sbox2 : SBox
deriving DecidableEq, Repr

/-- The open parameters of R8. No command, host access or reset changes them (R20, R49, R262). -/
structure Config where
  /-- TABLES. -/
  tables : Tables
  /-- PROG_INTERVAL, in trials; R8 asks 2 to 1024. -/
  progInterval : Nat
  /-- BASE: where the platform maps offset 0. R8 gives it no default, and no rule reads it (R73). -/
  base : Option Nat
deriving DecidableEq, Repr

/-- FREE VALUE (log entry 7). What a MATCH cell that no trial has written since reset holds: "memory
cells unspecified" (R51, R262, spec/93 U12). It has no body, so nothing can be proved of it. -/
opaque Config.unwrittenMatch : Nat → Key

end Sys2Proof
end

