-- ==== Sys2Proof/Syntax.lean ====
section
/-! DEFINITION. The seven commands (spec/30_encoding.md rule R102), the sixteen registers of the window
(spec/20_memory.md rule R74), and the events the machine takes (spec/00_scope.md rule R15). -/

namespace Sys2Proof

/-- The commands, one constructor per row of spec/opcode_table.json. No command has an operand field:
every operand is an implicit register (R100, R103). -/
inductive Instr where
  | nop
  | keygen
  | enc
  | dec
  | search
  | abort
  | srst
deriving DecidableEq, Repr

/-- The sixteen words of the register file at offsets 0x0000 to 0x003C, in the order of R74. -/
inductive Reg where
  | id
  | cmd
  | status
  | err
  | key
  | din
  | dout
  | k1
  | k2
  | spt
  | sct
  | kcnt
  | mcount
  | progress
  | ie
  | ip
deriving DecidableEq, Repr

/-- What a 13-bit offset names (R70, R74, R79). -/
inductive Target where
  /-- An aligned offset of the register file. -/
  | reg (r : Reg)
  /-- The word of MATCH entry `i`, at `0x1000 + 4*i`. -/
  | matchEntry (i : BitVec 10)
  /-- An aligned offset in `0x0040 .. 0x0FFF`. -/
  | unmapped
  /-- An offset whose two low bits are not both 0 (R76). -/
  | misaligned
deriving DecidableEq, Repr

/-- One atomic event of the machine (R15). The order of the events in a schedule is the interleaving of
the host, the scanner and the reset input, which the spec leaves open (R86, spec/93 U15). -/
inductive Event where
  /-- The host performs `MemRead(off, 4)` (R13). -/
  | read (off : Offset)
  /-- The host performs `MemWrite(off, 4, v)` (R13). -/
  | write (off : Offset) (v : Word)
  /-- The input `rst` is sampled 1 (R260). -/
  | reset
  /-- The scanner moves before the host's next access: a scanner step, if one is enabled (R196). -/
  | trial
deriving DecidableEq, Repr

end Sys2Proof
end

