-- ==== Sys2Proof/WellFormed.lean ====
section
/-! DEFINITION. What is well formed: the commands (all of them, R103), and a configuration record, by
the constraints of spec/10_state.md rule R48 and spec/00_scope.md rule R8. The lengths and ranges of
R48 (a), (b), (e) are in the types of Config.lean. -/

namespace Sys2Proof

/-- A command has no field, so each of the seven is well formed (R100, R103). -/
def Instr.wf : Instr → Bool
  | .nop => true
  | .keygen => true
  | .enc => true
  | .dec => true
  | .search => true
  | .abort => true
  | .srst => true

/-- The table selects no input position twice (R48 (c)): with `m = n` it is a bijection. -/
def PermTable.selectsOnce {m n : Nat} (t : PermTable m n) : Bool :=
  decide t.toList.Nodup

/-- The table uses every input position (R48 (c), for EP). -/
def PermTable.usesAll {m n : Nat} (t : PermTable m n) : Bool :=
  (List.finRange m).all fun p => t.toList.contains p

/-- `t` after `u` is the identity wiring (R48 (d)): entry `q` of `u` leads through `t` back to `q`. -/
def PermTable.undoes {n : Nat} (t u : PermTable n n) : Bool :=
  (List.finRange n).all fun q => t[u[q]] == q

/-- The constraints of R48 (c) and (d) on TABLES. -/
def Tables.wf (t : Tables) : Bool :=
  t.p10.selectsOnce && t.p8.selectsOnce && t.ip.selectsOnce && t.ipinv.selectsOnce
    && t.p4.selectsOnce && t.ep.usesAll && t.ip.undoes t.ipinv

/-- The constraints of R8: TABLES by R48, `2 ≤ PROG_INTERVAL ≤ 1024`, BASE aligned to 8192. -/
def Config.wf (c : Config) : Bool :=
  c.tables.wf && decide (2 ≤ c.progInterval) && decide (c.progInterval ≤ 1024)
    && c.base.all fun b => b % 8192 == 0

end Sys2Proof
end

