-- ==== Sys2Proof/Decode.lean ====
section
/-! DEFINITION. The decoder of a word written to CMD and the encoder (spec/30_encoding.md rules R100 to
R106). A command is one 32-bit word, so there is no byte order to decide (R75, log entry 9). -/

namespace Sys2Proof

/-- Why a word is no command (R104). Both reasons raise ILLCMD. -/
inductive DecodeError where
  /-- Some bit of 31:4 is set. -/
  | reservedBits
  /-- OP is in `0x7 .. 0xF`. -/
  | undefinedOp
deriving DecidableEq, Repr

/-- What the decoder answers: a command, or the reason there is none. -/
inductive Decoded where
  | command (i : Instr)
  | illegal (e : DecodeError)
deriving DecidableEq, Repr

/-- The field OP, bits 3:0 of a command word (R100). -/
def opField (v : Word) : BitVec 4 := v.extractLsb' 0 4

/-- The reserved bits 31:4 of a command word, which must be 0 (R100). -/
def reservedField (v : Word) : BitVec 28 := v.extractLsb' 4 28

/-- The decoder of R101 and R102. It is total: every word is a command or illegal. -/
def decode (v : Word) : Decoded :=
  if reservedField v ≠ 0 then .illegal .reservedBits
  else
    match (opField v).toNat with
    | 0 => .command .nop
    | 1 => .command .keygen
    | 2 => .command .enc
    | 3 => .command .dec
    | 4 => .command .search
    | 5 => .command .abort
    | 6 => .command .srst
    | _ => .illegal .undefinedOp

/-- The instruction of a decoder's answer, if it is one. -/
def Decoded.instr? : Decoded → Option Instr
  | .command i => some i
  | .illegal _ => none

/-- The operation code of a command (R102). -/
def opCode : Instr → BitVec 4
  | .nop => 0x0
  | .keygen => 0x1
  | .enc => 0x2
  | .dec => 0x3
  | .search => 0x4
  | .abort => 0x5
  | .srst => 0x6

/-- The word that issues a command: OP in bits 3:0 and zeros above (R100, R102). -/
def encode (i : Instr) : Word := (0 : BitVec 28) ++ opCode i

/-- The word that the low `nbits` bits of `w` are, with zeros above them; `none` where they do not fit
the 32-bit CMD register, the only length a command has (R100, R106). -/
def tableWord (nbits w : Nat) : Option Word :=
  let v := w % 2 ^ nbits
  if v < 2 ^ 32 then some (BitVec.ofNat 32 v) else none

/-- The command the decoder reads from a word numbered as spec/opcode_table.json numbers it. -/
def decodeTableWord (nbits w : Nat) : Option Instr :=
  (tableWord nbits w).bind fun v => (decode v).instr?

end Sys2Proof
end

