-- ==== Sys2Proof/Machine/Tables.lean ====
section
/-! DEFINITION. The default value of the configuration record (spec/10_state.md rules R41 to R47,
spec/00_scope.md rule R8). The contents are the classic S-DES tables, which the spec supplies from
general knowledge (UNVERIFIED, log entry 5). -/

namespace Sys2Proof.Machine

/-- D00's 1-based position `p` of an `m`-bit input, as a table entry. -/
def position (m : Nat) [NeZero m] (p : Nat) : Fin m := Fin.ofNat m (p - 1)

/-- P10 (R41). -/
def tableP10 : PermTable 10 10 :=
  #v[position 10 3, position 10 5, position 10 2, position 10 7, position 10 4,
     position 10 10, position 10 1, position 10 9, position 10 8, position 10 6]

/-- P8 (R42). -/
def tableP8 : PermTable 10 8 :=
  #v[position 10 6, position 10 3, position 10 7, position 10 4,
     position 10 8, position 10 5, position 10 10, position 10 9]

/-- IP (R43). -/
def tableIP : PermTable 8 8 :=
  #v[position 8 2, position 8 6, position 8 3, position 8 1,
     position 8 4, position 8 8, position 8 5, position 8 7]

/-- IPINV, D00's IP⁻¹ (R44). -/
def tableIPINV : PermTable 8 8 :=
  #v[position 8 4, position 8 1, position 8 3, position 8 5,
     position 8 7, position 8 2, position 8 8, position 8 6]

/-- EP (R45). -/
def tableEP : PermTable 4 8 :=
  #v[position 4 4, position 4 1, position 4 2, position 4 3,
     position 4 2, position 4 3, position 4 4, position 4 1]

/-- P4 (R46). -/
def tableP4 : PermTable 4 4 :=
  #v[position 4 2, position 4 4, position 4 3, position 4 1]

/-- SBOX1, the textbook's S0 (R47). -/
def tableSBOX1 : SBox :=
  #v[#v[1, 0, 3, 2], #v[3, 2, 1, 0], #v[0, 2, 1, 3], #v[3, 1, 3, 2]]

/-- SBOX2, the textbook's S1 (R47). -/
def tableSBOX2 : SBox :=
  #v[#v[0, 1, 2, 3], #v[2, 0, 1, 3], #v[3, 0, 1, 0], #v[2, 1, 0, 3]]

/-- The default TABLES (R40). -/
def defaultTables : Tables where
  p10 := tableP10
  p8 := tableP8
  ip := tableIP
  ipinv := tableIPINV
  ep := tableEP
  p4 := tableP4
  sbox1 := tableSBOX1
  sbox2 := tableSBOX2

/-- The default configuration (R8): the default TABLES, PROG_INTERVAL = 100, and no BASE. -/
def defaultConfig : Config where
  tables := defaultTables
  progInterval := 100
  base := none

end Sys2Proof.Machine
end

