-- ==== Sys2Proof/Machine/State.lean ====
section
/-! DEFINITION. The state of the SDES-CORE (spec/10_state.md rules R20 to R37), its reset value (R51),
and the reasons a step can stop. -/

namespace Sys2Proof.Machine

/-- MATCH as written so far: (index, key) pairs with strictly rising indices below 1024 (R37). An index
that is not listed holds the free value `Config.unwrittenMatch` (R262, log entry 7). -/
abbrev MatchMemory := List (Nat × Key)

/-- What the port returned in the last step (R71). It is an output, not storage of the block: `none` means
that no access was performed, not that a value is missing (log entry 4). -/
inductive Response where
  /-- No access was performed in the last step. -/
  | none
  /-- A write was performed and acknowledged. -/
  | written
  /-- A read was performed and returned this word on `rdata`. -/
  | data (v : Word)
deriving DecidableEq, Repr

/-- The four error causes, in the order of their codes (R230). -/
inductive ErrorCause where
  | width
  | illcmd
  | busy
  | access
deriving DecidableEq, Repr

/-- The machine: the block's registers and flags under the spec's names (R20), the configuration it was
built with (R8), and the model's own port (schedule in, response out). -/
structure State where
  /-- KEY, the master key (R22). -/
  key : Key
  /-- DIN, the input block of ENC and DEC (R23). -/
  din : Block
  /-- DOUT, the result of the most recent ENC or DEC (R25). -/
  dout : Block
  /-- K1 (R26). -/
  k1 : Block
  /-- K2 (R26). -/
  k2 : Block
  /-- SPT, the known plaintext of the key search (R27). -/
  spt : Block
  /-- SCT, the target ciphertext of the key search (R27). -/
  sct : Block
  /-- KCNT, the number of keys tested, which is the next key to test (R28). -/
  kcnt : BitVec 11
  /-- MCOUNT, the number of matching keys found (R29). -/
  mcount : BitVec 11
  /-- PROGRESS, the percentage last reported (R30). -/
  progress : BitVec 7
  /-- STATUS.SBUSY: a scan is running (R31). -/
  sbusy : Bool
  /-- STATUS.SDONE: the most recent SEARCH tested all keys (R31). -/
  sdone : Bool
  /-- STATUS.SABORT: the most recent SEARCH was ended by ABORT (R31). -/
  sabort : Bool
  /-- STATUS.KVALID: K1 and K2 belong to KEY (R31). -/
  kvalid : Bool
  /-- STATUS.LASTOP: 0 none, 1 ENC, 2 DEC (R31). -/
  lastop : BitVec 2
  /-- ERR: bit 0 WIDTH, 1 ILLCMD, 2 BUSY, 3 ACCESS (R32). -/
  err : BitVec 4
  /-- IE: bit 0 DONE, 1 PROG, 2 ERR (R33). -/
  ie : BitVec 3
  /-- IP: bit 0 DONE, 1 PROG (R34). -/
  ip : BitVec 2
  /-- MATCH, the result memory (R37). -/
  matchMem : MatchMemory
  /-- The open parameters (R8): configuration, which no step changes. -/
  cfg : Config
  /-- The model's own field: the events still to come, the next one first (R15; DESIGN
  CHOICE, log entry 1). -/
  schedule : List Event
  /-- The model's own field: the port's answer in the last step (R71; DESIGN CHOICE, log entry 4). -/
  response : Response
deriving DecidableEq, Repr

/-- Why the machine stops. Both reasons belong to states that no run reaches (DESIGN CHOICE, log entry
8). -/
inductive Fault where
  /-- Raised by a trial whose KCNT is above 1023, a key that does not exist (R196 gives a trial a meaning
  for `k` at most 1023 only). Safe: the model stops, and no state with the invariant raises it. -/
  | keyOutOfRange
  /-- Raised by a trial that would record a match at MATCH[1024] or above, which does not exist (R92).
  Safe: the model stops, and no state with the invariant raises it. -/
  | matchIndexOutOfRange
deriving DecidableEq, Repr

/-- Why an instruction has no meaning. -/
inductive Refusal where
  /-- Raised by an arm of `exec` whose instruction has no meaning yet. No arm of this model raises it.
  Safe: the model stops. -/
  | notModelled (mnemonic : String)
deriving DecidableEq, Repr

/-- The machine right after reset: every bit of state is 0 (R51, R260) and MATCH has no written cell
(R262). The configuration is the default one, and nothing has been presented at the port. -/
def State.reset : State where
  key := 0
  din := 0
  dout := 0
  k1 := 0
  k2 := 0
  spt := 0
  sct := 0
  kcnt := 0
  mcount := 0
  progress := 0
  sbusy := false
  sdone := false
  sabort := false
  kvalid := false
  lastop := 0
  err := 0
  ie := 0
  ip := 0
  matchMem := []
  cfg := defaultConfig
  schedule := []
  response := .none

end Sys2Proof.Machine
end

