-- ==== Sys2Proof/Machine/Flags.lean ====
section
/-! DEFINITION. Every flag computation (spec/10_state.md rules R31 to R34, R38, R52): the words of the
flag registers as a host reads them, the write-one-to-clear rule, the interrupt output, and when and
what a trial reports (spec/45_key_search.md rule R198). -/

namespace Sys2Proof.Machine

/-- A one-bit flag at bit `n` of a word. -/
def flagAt (b : Bool) (n : Nat) : Word := (if b then 1#32 else 0#32) <<< n

/-- STATUS.ERRANY: 1 exactly when ERR is not 0; computed, not stored (R31). -/
def errAny (s : State) : Bool := s.err != 0

/-- STATUS as a host reads it (R31, R81). -/
def statusWord (s : State) : Word :=
  flagAt s.sbusy 0 ||| flagAt s.sdone 1 ||| flagAt s.sabort 2 ||| flagAt s.kvalid 3
    ||| (s.lastop.setWidth 32 <<< 4) ||| flagAt (errAny s) 6

/-- The code of an error, which is its bit number in ERR (R230, R32). -/
def errorCode : ErrorCause → Nat
  | .width => 0
  | .illcmd => 1
  | .busy => 2
  | .access => 3

/-- The bit of ERR that an error sets. -/
def errorBit (e : ErrorCause) : BitVec 4 := 1#4 <<< errorCode e

/-- IP.DONE (R34). -/
def ipDone : BitVec 2 := 0b01

/-- IP.PROG (R34). -/
def ipProg : BitVec 2 := 0b10

/-- The field after a write-one-to-clear by `v`: the bits written as 1 become 0, the others keep their
value (R32, R34). Bits of `v` above the field are ignored. -/
def clearOnes {w : Nat} (field : BitVec w) (v : Word) : BitVec w := field &&& ~~~ v.setWidth w

/-- The interrupt output, a level and a pure function of the state (R52, R241). -/
def irq (s : State) : Bool :=
  (s.ie.getLsbD 0 && s.ip.getLsbD 0) || (s.ie.getLsbD 1 && s.ip.getLsbD 1)
    || (s.ie.getLsbD 2 && errAny s)

/-- The output `ack`: an access was performed in the last step (R71). -/
def ack (s : State) : Bool := s.response != .none

/-- The trial of key `k` reports when `k mod PROG_INTERVAL = 0` (R198). -/
def reportDue (c : Config) (k : Nat) : Bool := k % c.progInterval == 0

/-- What the trial of key `k` reports: `floor(k*100/1024)` (R198, R132). -/
def percentAt (k : Nat) : BitVec 7 := BitVec.ofNat 7 (k * 100 / keyspace)

end Sys2Proof.Machine
end

