-- ==== Sys2Proof/Machine/Operands.lean ====
section
/-! DEFINITION. The operand forms. A command's operands are fixed registers (spec/30_encoding.md rule
R103); the only addressed operands are the host's offsets (spec/20_memory.md rules R70, R74, R79, R92). -/

namespace Sys2Proof.Machine

/-- The register of the word with index `n` in the register file, 0 to 15 (R74). -/
def regOfIndex (n : BitVec 4) : Reg :=
  match n.toNat with
  | 0 => .id
  | 1 => .cmd
  | 2 => .status
  | 3 => .err
  | 4 => .key
  | 5 => .din
  | 6 => .dout
  | 7 => .k1
  | 8 => .k2
  | 9 => .spt
  | 10 => .sct
  | 11 => .kcnt
  | 12 => .mcount
  | 13 => .progress
  | 14 => .ie
  | _ => .ip

/-- The offset of a register in the window (R74). -/
def regOffset : Reg → Offset
  | .id => 0x0000
  | .cmd => 0x0004
  | .status => 0x0008
  | .err => 0x000C
  | .key => 0x0010
  | .din => 0x0014
  | .dout => 0x0018
  | .k1 => 0x001C
  | .k2 => 0x0020
  | .spt => 0x0024
  | .sct => 0x0028
  | .kcnt => 0x002C
  | .mcount => 0x0030
  | .progress => 0x0034
  | .ie => 0x0038
  | .ip => 0x003C

/-- The offset of MATCH entry `i`, `0x1000 + 4*i` (R37, R74). -/
def matchOffset (i : BitVec 10) : Offset := 0x1000 + (i.setWidth 13 <<< 2)

/-- What an offset names: misaligned before anything else (R76, R239), then by region (R70, R74). -/
def targetOf (off : Offset) : Target :=
  if off.extractLsb' 0 2 ≠ 0 then .misaligned
  else if off.toNat < 0x40 then .reg (regOfIndex (off.extractLsb' 2 4))
  else if off.toNat < 0x1000 then .unmapped
  else .matchEntry (off.extractLsb' 2 10)

/-- `v[31:w] != 0`: the word does not fit a register of `w` bits (R22, R23, R27, R231). -/
def tooWide (w : Nat) (v : Word) : Bool := v >>> w != 0

end Sys2Proof.Machine
end

