-- ==== Sys2Proof/Machine/Ops.lean ====
section
/-! DEFINITION. The operations over the result memory and the registers: MATCH cells (spec/10_state.md
rule R37), raising an error and acknowledging it (spec/60_exceptions.md rules R236, R240), the lock-out
(R238), and reset (spec/70_reset_and_hazards.md rule R260). -/

namespace Sys2Proof.Machine

/-- The key last written to cell `i`, or `none` if no trial has written it since reset. -/
def matchRead (m : MatchMemory) (i : Nat) : Option Key :=
  match m with
  | [] => none
  | (j, k) :: rest => if j = i then some k else matchRead rest i

/-- The memory with cell `i` set to `k`, in canonical form. -/
def matchWrite (m : MatchMemory) (i : Nat) (k : Key) : MatchMemory :=
  match m with
  | [] => [(i, k)]
  | (j, kj) :: rest =>
    if i < j then (i, k) :: (j, kj) :: rest
    else if i = j then (i, k) :: rest
    else (j, kj) :: matchWrite rest i k

/-- The indices of the listed cells are at least `lo`, below 1024 and strictly rising. -/
def matchSortedFrom (lo : Nat) (m : MatchMemory) : Bool :=
  match m with
  | [] => true
  | (j, _) :: rest => decide (lo ≤ j) && decide (j < keyspace) && matchSortedFrom (j + 1) rest

/-- The canonical form of MATCH: strictly rising indices below 1024. An unlisted cell reads as no known
key, so no listed entry equals it, and equal memories are equal lists. -/
def matchWf (m : MatchMemory) : Bool := matchSortedFrom 0 m

/-- `MATCH[i]`: the cell's key; a free value where no trial has written the cell since reset (R262,
log entry 7). -/
def matchCell (s : State) (i : Nat) : Key := (matchRead s.matchMem i).getD (Config.unwrittenMatch i)

/-- The result sequence `MATCH[0 .. MCOUNT-1]` (R29, R37). -/
def matchList (s : State) : List Key := (List.range s.mcount.toNat).map (matchCell s)

/-- TAKING AN ERROR: `raise X` sets the bit of ERR and does nothing else (R14, R236). There is no handler,
no saved context and no change of mode. -/
def raiseError (e : ErrorCause) (s : State) : State := { s with err := s.err ||| errorBit e }

/-- Acknowledging errors, which stands where other machines return from an exception (R240): a host write
of `v` to ERR clears the bits written as 1 (R32). -/
def acknowledgeErrors (v : Word) (s : State) : State := { s with err := clearOnes s.err v }

/-- The lock-out (R238): while ERR is not 0 the command is dropped and changes nothing. -/
def unlessLocked (effect : State → State) (s : State) : State := if s.err ≠ 0 then s else effect s

/-- RESET: every bit of the block's state takes its reset value (R51, R260). The configuration is not
touched (R262); the events still to come and the port's answer are not the block's state. -/
def resetBlock (s : State) : State :=
  { State.reset with cfg := s.cfg, schedule := s.schedule, response := s.response }

end Sys2Proof.Machine
end

