-- ==== Sys2Proof/Machine/Control.lean ====
section
/-! DEFINITION. The control commands NOP and SRST (spec/46_control_commands.md), executed whatever ERR
holds (R220). -/

namespace Sys2Proof.Machine

/-- NOP (R221): no state changes at all. -/
def execNop (s : State) : Host.Outcome State Fault Refusal := .next s

/-- SRST (R222): exactly the effect of reset (R263). -/
def execSrst (s : State) : Host.Outcome State Fault Refusal := .next (resetBlock s)

end Sys2Proof.Machine
end

