-- ==== Sys2Proof/Machine/Primitives.lean ====
section
/-! DEFINITION. The bit-vector primitives of spec/40_bitvector_primitives.md: pure and total functions
that read and write no state (R120, R128, R130). -/

namespace Sys2Proof.Machine

/-- `v<p>`: the bit at position `p`, counted from 1 at the most significant end (R9). -/
def bitAt {w : Nat} (v : BitVec w) (p : Nat) : Bool := v.getMsbD (p - 1)

/-- `permute(input, table)` (R121): output position `q` takes the input position that entry `q` of the
table names. Index `j` of the output is position `n - j`. -/
def permute {m n : Nat} (input : BitVec m) (table : PermTable m n) : BitVec n :=
  BitVec.ofFnLE fun j => input.getMsbD (table[n - 1 - j.val]'(by omega)).val

/-- `rotateLeft(input, n)` (R123): circular rotation toward position 1 by `n mod W`. -/
def rotateLeft {w : Nat} (input : BitVec w) (n : Nat) : BitVec w := input.rotateLeft n

/-- `xor(a, b)` (R125). -/
def xor {w : Nat} (a b : BitVec w) : BitVec w := a ^^^ b

/-- The S-box row of an input: its positions 1 and 4, in that order (R126). -/
def sboxRow (n : Half) : BitVec 2 := n.extractLsb' 3 1 ++ n.extractLsb' 0 1

/-- The S-box column of an input: its positions 2 and 3, in that order (R126). -/
def sboxColumn (n : Half) : BitVec 2 := n.extractLsb' 2 1 ++ n.extractLsb' 1 1

/-- `sboxLookup(n, table)` (R126, R127): `table[row][column]` as a 2-bit vector. -/
def sboxLookup (n : Half) (table : SBox) : Pair :=
  (table[(sboxRow n).toNat]'(sboxRow n).isLt)[(sboxColumn n).toNat]'(sboxColumn n).isLt

/-- `left(v)`: positions 1 to W/2, the most significant half (R11, R129). -/
def left {w : Nat} (v : BitVec (w + w)) : BitVec w := v.extractLsb' w w

/-- `right(v)`: positions W/2 + 1 to W, the least significant half (R11, R129). -/
def right {w : Nat} (v : BitVec (w + w)) : BitVec w := v.extractLsb' 0 w

end Sys2Proof.Machine
end

