-- ==== Sys2Proof/Machine/KeySchedule.lean ====
section
/-! DEFINITION. The key schedule generator (spec/41_key_schedule.md rules R140 to R144). -/

namespace Sys2Proof.Machine

/-- Step 1: P10, then the two 5-bit halves `(l0, r0)` (R141). -/
def keyHalves (t : Tables) (key : Key) : KeyHalf × KeyHalf :=
  let p := permute key t.p10
  (left (w := 5) p, right (w := 5) p)

/-- Concatenate two key halves and apply P8 (R142, R143). -/
def compress (t : Tables) (l r : KeyHalf) : Block := permute (l ++ r) t.p8

/-- `KS(key) = (K1, K2)` (R140, R144): each half rotates by 1 for K1 (R142) and by 2 more for K2
(R143). -/
def keySchedule (t : Tables) (key : Key) : Block × Block :=
  let (l0, r0) := keyHalves t key
  let l1 := rotateLeft l0 1
  let r1 := rotateLeft r0 1
  let l2 := rotateLeft l1 2
  let r2 := rotateLeft r1 2
  (compress t l1 r1, compress t l2 r2)

end Sys2Proof.Machine
end

