-- ==== Sys2Proof/Machine/Cipher.lean ====
section
/-! DEFINITION. The round function F (spec/42_round_function.md), the two-round block cipher
(spec/43_block_cipher.md) and the function the key search computes (spec/45_key_search.md rule R190). -/

namespace Sys2Proof.Machine

/-- `F(right4, subkey8)` (R150, R156): EP (R151), XOR with the subkey (R152), the halves (R153) through
SBOX1 and SBOX2 (R154), P4 (R155). -/
def roundF (t : Tables) (right4 : Half) (subkey8 : Block) : Half :=
  let e := permute right4 t.ep
  let x := xor e subkey8
  let a := left (w := 4) x
  let b := right (w := 4) x
  let sa := sboxLookup a t.sbox1
  let sb := sboxLookup b t.sbox2
  permute (sa ++ sb) t.p4

/-- The values after the five stages of one pass through the circuit (R169). A function's trace for
testing: no register holds a stage (R24, R249). -/
structure Stages where
  initial : Block
  round1 : Block
  swapped : Block
  round2 : Block
  final : Block
deriving DecidableEq, Repr

/-- The five stage values of `Crypt(block, ka, kb)` (R161 to R166, R169). -/
def cryptStages (t : Tables) (block ka kb : Block) : Stages :=
  let ip := permute block t.ip
  let l0 := left (w := 4) ip
  let r0 := right (w := 4) ip
  let l0p := xor l0 (roundF t r0 ka)
  let l1 := r0
  let r1 := l0p
  let l1p := xor l1 (roundF t r1 kb)
  let pre : Block := l1p ++ r1
  { initial := l0 ++ r0, round1 := l0p ++ r0, swapped := l1 ++ r1, round2 := pre,
    final := permute pre t.ipinv }

/-- `Crypt(block, ka, kb)` (R160): two rounds, a swap between them and none after (R165). -/
def crypt (t : Tables) (block ka kb : Block) : Block := (cryptStages t block ka kb).final

/-- `Encrypt(plaintext8, key10)` (R167): round 1 uses K1 and round 2 uses K2. -/
def encrypt (t : Tables) (plaintext8 : Block) (key10 : Key) : Block :=
  let (k1, k2) := keySchedule t key10
  crypt t plaintext8 k1 k2

/-- `Decrypt(ciphertext8, key10)` (R168): the same circuit, round 1 with K2 and round 2 with K1. -/
def decrypt (t : Tables) (ciphertext8 : Block) (key10 : Key) : Block :=
  let (k1, k2) := keySchedule t key10
  crypt t ciphertext8 k2 k1

/-- The keys below `n` that take plaintext `p` to ciphertext `c`, in ascending order (R190, R194). -/
def matchesBelow (t : Tables) (p c : Block) (n : Nat) : List Key :=
  ((List.range n).map (BitVec.ofNat 10)).filter fun k => encrypt t p k == c

/-- `searchKeys(p, c)` (R190): the matching keys among all 1024, ascending, with no early stop. -/
def searchKeys (t : Tables) (p c : Block) : List Key := matchesBelow t p c keyspace

end Sys2Proof.Machine
end

