-- ==== Sys2Proof/Machine/Engine.lean ====
section
/-! DEFINITION. The engine commands KEYGEN, ENC and DEC (spec/41_key_schedule.md rule R146,
spec/43_block_cipher.md rules R170 to R172). Each is atomic: its whole effect is one next state. The
lock-out is tested here and not in the decoder (log entry 13). -/

namespace Sys2Proof.Machine

/-- `K1 <- k1 ; K2 <- k2 ; KVALID <- 1` with `(k1, k2) = KS(KEY)` (R146): the pair is derived afresh from
KEY, in the key schedule's own order, whatever KVALID was (R171, R172). -/
def deriveSubkeys (s : State) : State :=
  { s with
    k1 := (keySchedule s.cfg.tables s.key).1
    k2 := (keySchedule s.cfg.tables s.key).2
    kvalid := true }

/-- KEYGEN without the lock-out (R146). -/
def keygenEffect (s : State) : State := deriveSubkeys s

/-- ENC without the lock-out (R171): DOUT becomes `Encrypt(DIN, KEY)`, LASTOP becomes 1. -/
def encEffect (s : State) : State :=
  { deriveSubkeys s with dout := encrypt s.cfg.tables s.din s.key, lastop := 1 }

/-- DEC without the lock-out (R172): DOUT becomes `Decrypt(DIN, KEY)`, LASTOP becomes 2. -/
def decEffect (s : State) : State :=
  { deriveSubkeys s with dout := decrypt s.cfg.tables s.din s.key, lastop := 2 }

/-- KEYGEN (R146), dropped while ERR is not 0 (R101, R238). -/
def execKeygen (s : State) : Host.Outcome State Fault Refusal := .next (unlessLocked keygenEffect s)

/-- ENC (R171), dropped while ERR is not 0 (R101, R238). -/
def execEnc (s : State) : Host.Outcome State Fault Refusal := .next (unlessLocked encEffect s)

/-- DEC (R172), dropped while ERR is not 0 (R101, R238). -/
def execDec (s : State) : Host.Outcome State Fault Refusal := .next (unlessLocked decEffect s)

end Sys2Proof.Machine
end

