-- ==== Sys2Proof/Machine/Scanner.lean ====
section
/-! DEFINITION. The key-search scanner (spec/45_key_search.md): the commands SEARCH and ABORT and the
scanner step. -/

namespace Sys2Proof.Machine

/-- Starting a scan (R192): the counters become 0 and SBUSY becomes 1. IP and the MATCH cells are kept:
MCOUNT = 0 hides the cells (R37). -/
def startScan (s : State) : State :=
  { s with
    kcnt := 0
    mcount := 0
    progress := 0
    sdone := false
    sabort := false
    sbusy := true }

/-- SEARCH without the lock-out: BUSY while a scan runs (R193), else a new scan (R192). -/
def searchEffect (s : State) : State := if s.sbusy then raiseError .busy s else startScan s

/-- SEARCH (R192, R193), dropped while ERR is not 0 (R101, R238). -/
def execSearch (s : State) : Host.Outcome State Fault Refusal := .next (unlessLocked searchEffect s)

/-- ABORT (R203), executed whatever ERR holds (R220): a running scan stops between two trials and keeps
its counters, its progress and its matches; with no scan nothing changes. -/
def execAbort (s : State) : Host.Outcome State Fault Refusal :=
  .next (if s.sbusy then { s with sbusy := false, sabort := true } else s)

/-- The trial key: `KCNT[9:0]` (R194). -/
def trialKey (s : State) : Key := s.kcnt.extractLsb' 0 10

/-- The match predicate of a trial, `Encrypt(SPT, k) = SCT` (R195). -/
def trialMatches (s : State) : Bool := encrypt s.cfg.tables s.spt (trialKey s) == s.sct

/-- Appending the trial key: `MATCH[MCOUNT] <- k ; MCOUNT <- MCOUNT + 1` (R197). -/
def appendMatch (s : State) : State :=
  { s with
    matchMem := matchWrite s.matchMem s.mcount.toNat (trialKey s)
    mcount := s.mcount + 1 }

/-- A report of progress: PROGRESS is written and IP.PROG set (R198, R34). -/
def report (percent : BitVec 7) (s : State) : State :=
  { s with progress := percent, ip := s.ip ||| ipProg }

/-- The end of the scan, in the trial of key 1023 (R199). -/
def completeScan (s : State) : State :=
  let r := report 100 s
  { r with ip := r.ip ||| ipDone, sdone := true, sbusy := false }

/-- The part of a trial after the match: the report, the advance of KCNT, and completion, which comes last
and wins over the report (R196, R198, R199). -/
def advanceScan (s : State) : State :=
  let k := s.kcnt.toNat
  let reported := if reportDue s.cfg k then report (percentAt k) s else s
  let advanced := { reported with kcnt := s.kcnt + 1 }
  if k = 1023 then completeScan advanced else advanced

/-- A scanner step (R196): one trial, of key KCNT, as one transition. It never reads or writes ERR. It
faults only where the key or the MATCH cell does not exist, which no run reaches (R50, R92). -/
def trial (s : State) : Host.Outcome State Fault Refusal :=
  if keyspace ≤ s.kcnt.toNat then .fault .keyOutOfRange
  else if trialMatches s then
    if keyspace ≤ s.mcount.toNat then .fault .matchIndexOutOfRange
    else .next (advanceScan (appendMatch s))
  else .next (advanceScan s)

/-- The scanner's turn: a trial if one is enabled, which is exactly when SBUSY is 1 (R15, R196); else
nothing changes (R250). -/
def scannerTurn (s : State) : Host.Outcome State Fault Refusal :=
  if s.sbusy then trial s else .next s

end Sys2Proof.Machine
end

