-- ==== Sys2Proof/Machine/Dispatch.lean ====
section
/-! DEFINITION. What each command does, one arm per constructor (spec/30_encoding.md rule R101). -/

namespace Sys2Proof.Machine

def exec (i : Instr) (s : State) : Host.Outcome State Fault Refusal :=
  match i with
  | .nop => Sys2Proof.Machine.execNop s
  | .keygen => Sys2Proof.Machine.execKeygen s
  | .enc => Sys2Proof.Machine.execEnc s
  | .dec => Sys2Proof.Machine.execDec s
  | .search => Sys2Proof.Machine.execSearch s
  | .abort => Sys2Proof.Machine.execAbort s
  | .srst => Sys2Proof.Machine.execSrst s

end Sys2Proof.Machine
end

