-- ==== Sys2Proof/Machine/Bus.lean ====
section
/-! DEFINITION. The host's accesses (spec/20_memory.md rules R76 to R83, spec/60_exceptions.md rule R239)
and the events of the machine (spec/00_scope.md rule R15). -/

namespace Sys2Proof.Machine

/-- The constant that register ID returns, ASCII "SDES" (R1, R35). -/
def idWord : Word := 0x53444553

/-- What a host read of a register returns; every field is zero-extended (R81, R83). -/
def readReg (s : State) : Reg → Word
  | .id => idWord
  | .cmd => 0
  | .status => statusWord s
  | .err => s.err.setWidth 32
  | .key => s.key.setWidth 32
  | .din => s.din.setWidth 32
  | .dout => s.dout.setWidth 32
  | .k1 => s.k1.setWidth 32
  | .k2 => s.k2.setWidth 32
  | .spt => s.spt.setWidth 32
  | .sct => s.sct.setWidth 32
  | .kcnt => s.kcnt.setWidth 32
  | .mcount => s.mcount.setWidth 32
  | .progress => s.progress.setWidth 32
  | .ie => s.ie.setWidth 32
  | .ip => s.ip.setWidth 32

/-- What a host read of MATCH entry `i` returns: the VALID bit and the key if `i < MCOUNT`, else 0
(R37, R81). -/
def readMatch (s : State) (i : BitVec 10) : Word :=
  if i.toNat < s.mcount.toNat then 0x80000000 ||| (matchCell s i.toNat).setWidth 32 else 0

/-- `MemRead(off, 4)`: the word returned and the state after. Only a bad offset changes the state
(R78, R79, R81). -/
def memRead (off : Offset) (s : State) : Word × State :=
  match targetOf off with
  | .reg r => (readReg s r, s)
  | .matchEntry i => (readMatch s i, s)
  | .unmapped => (0, raiseError .access s)
  | .misaligned => (0, raiseError .access s)

/-- A host write to KEY (R22). -/
def writeKey (v : Word) (s : State) : State :=
  if tooWide 10 v then raiseError .width s
  else { s with key := v.setWidth 10, kvalid := false, lastop := 0 }

/-- A host write to DIN (R23). -/
def writeDin (v : Word) (s : State) : State :=
  if tooWide 8 v then raiseError .width s
  else { s with din := v.setWidth 8, lastop := 0 }

/-- A host write to SPT: BUSY is checked before WIDTH (R27, R239). -/
def writeSpt (v : Word) (s : State) : State :=
  if s.sbusy then raiseError .busy s
  else if tooWide 8 v then raiseError .width s
  else { s with spt := v.setWidth 8 }

/-- A host write to SCT: BUSY is checked before WIDTH (R27, R239). -/
def writeSct (v : Word) (s : State) : State :=
  if s.sbusy then raiseError .busy s
  else if tooWide 8 v then raiseError .width s
  else { s with sct := v.setWidth 8 }

/-- A write to CMD (R101): a word that is no command raises ILLCMD, before the lock-out is looked at
(R104); a command runs at once (R36). -/
def runCommand (v : Word) (s : State) : Host.Outcome State Fault Refusal :=
  match decode v with
  | .illegal _ => .next (raiseError .illcmd s)
  | .command i => exec i s

/-- A host write to a register (R82): a read-only register raises ACCESS and keeps its value (R80), CMD
stores nothing and runs the command (R36). -/
def writeReg (r : Reg) (v : Word) (s : State) : Host.Outcome State Fault Refusal :=
  match r with
  | .id => .next (raiseError .access s)
  | .cmd => runCommand v s
  | .status => .next (raiseError .access s)
  | .err => .next (acknowledgeErrors v s)
  | .key => .next (writeKey v s)
  | .din => .next (writeDin v s)
  | .dout => .next (raiseError .access s)
  | .k1 => .next (raiseError .access s)
  | .k2 => .next (raiseError .access s)
  | .spt => .next (writeSpt v s)
  | .sct => .next (writeSct v s)
  | .kcnt => .next (raiseError .access s)
  | .mcount => .next (raiseError .access s)
  | .progress => .next (raiseError .access s)
  | .ie => .next { s with ie := v.setWidth 3 }
  | .ip => .next { s with ip := clearOnes s.ip v }

/-- `MemWrite(off, 4, v)` (R79, R80, R82), with the checks in the order of R239. -/
def memWrite (off : Offset) (v : Word) (s : State) : Host.Outcome State Fault Refusal :=
  match targetOf off with
  | .reg r => writeReg r v s
  | .matchEntry _ => .next (raiseError .access s)
  | .unmapped => .next (raiseError .access s)
  | .misaligned => .next (raiseError .access s)

/-- One event of the machine (R15). The port's answer is that of the event's access; an event that is no
access finds it empty. -/
def runEvent (e : Event) (s : State) : Host.Outcome State Fault Refusal :=
  match e with
  | .read off => .next { (memRead off s).2 with response := .data (memRead off s).1 }
  | .write off v => memWrite off v { s with response := .written }
  | .reset => .next (resetBlock s)
  | .trial => scannerTurn s

/-- The machine's next move: the first event of the schedule; when nothing is scheduled the host is silent
and the scanner has the turn, so that a running scan goes on (R281) and an idle block stays as it is
(R250) (DESIGN CHOICE, log entry 3). -/
def nextMove (s : State) : Host.Outcome State Fault Refusal :=
  match s.schedule with
  | [] => scannerTurn { s with response := .none }
  | e :: rest => runEvent e { s with schedule := rest, response := .none }

/-- The machine with a write of `v` to CMD as the next event, before whatever was scheduled. -/
def presentCommand (v : Word) (s : State) : State :=
  { s with schedule := .write (regOffset .cmd) v :: s.schedule }

end Sys2Proof.Machine
end

