-- ==== Sys2Proof/Machine/Step.lean ====
section
/-! DEFINITION. One step of the machine, and how the host places a command where a step takes it. -/

namespace Sys2Proof.Machine

/-- One atomic transition (spec/00_scope.md rule R15). -/
def step (s : State) : Host.Outcome State Fault Refusal := nextMove s

/-- The state with the instruction of a table row as the next event: the host's write of that word to CMD
(R100). Bits above `nbits` are 0; a word longer than CMD is cut to the 32 bits of `wdata`
(DESIGN CHOICE, log entries 2 and 9). -/
def State.withFetchWord (s : State) (nbits w : Nat) : State :=
  presentCommand (BitVec.ofNat 32 (w % 2 ^ nbits)) s

end Sys2Proof.Machine
end

