-- ==== Sys2Proof/Machine/HostDriver.lean ====
section
/-! DEFINITION. The host's side, which is no part of the block (spec/00_scope.md rule R5): the driver's
checks (spec/60_exceptions.md rules R231, R232), the functions of the text codec
(spec/44_text_codec.md), the notation of spec/30_encoding.md rule R107, and a run of the machine on a
list of events (DESIGN CHOICE, log entry 11). The entry points stand in Machine/HostCalls.lean. -/

namespace Sys2Proof.Machine

/-- The errors a host driver reports: D00's three typed errors, before it touches the block (R231, R232,
R184) or, the first of them, for ERR.WIDTH (R231); and one for a refusal that D00 has no error for (R233). -/
inductive DriverError where
  /-- A bit string whose length is not the operand's width, or an operand that the block refused as too
  wide. -/
  | widthMismatch
  /-- A bit string with a character other than 0 and 1. -/
  | invalidSymbol
  /-- A character whose code point is above 255. -/
  | unsupportedCharacter
  /-- The status check of a call failed and ERR, which then read `err`, has no WIDTH bit (log entry 17). -/
  | hardware (err : BitVec 4)
deriving DecidableEq, Repr

/-- What a driver answers: a result, or an error for the whole call. -/
inductive Checked (α : Type) where
  | ok (a : α)
  | error (e : DriverError)
deriving DecidableEq, Repr

/-- The number a string of the digits 0 and 1 spells, first character most significant (R9). -/
def spelled (cs : List Char) : Nat := cs.foldl (fun n c => 2 * n + (if c = '1' then 1 else 0)) 0

/-- D00's strict-width validation (R231, R232): length first, then symbols. -/
def parseBits (w : Nat) (cs : List Char) : Checked (BitVec w) :=
  if cs.length ≠ w then .error .widthMismatch
  else if cs.all fun c => c = '0' || c = '1' then .ok (BitVec.ofNat w (spelled cs))
  else .error .invalidSymbol

/-- `WR <REG>, <value>` (R107). -/
def wr (r : Reg) (v : Word) : Event := .write (regOffset r) v

/-- `RD <REG>` (R107). -/
def rd (r : Reg) : Event := .read (regOffset r)

/-- `CMD <mnemonic>` (R107). -/
def cmd (i : Instr) : Event := wr .cmd (encode i)

/-- `RD MATCH[i]` (R107). -/
def rdMatch (i : BitVec 10) : Event := .read (matchOffset i)

/-- The code points of a string as blocks, or UnsupportedCharacter for the whole string (R182, R184). -/
def codePoints (s : List Char) : Checked (List Block) :=
  if s.all fun c => decide (c.toNat ≤ 255) then .ok (s.map fun c => BitVec.ofNat 8 c.toNat)
  else .error .unsupportedCharacter

/-- The string with these code points (R182). -/
def characters (bs : List Block) : List Char := bs.map fun b => Char.ofNat b.toNat

/-- `encryptText(s, key10)` (R180): every character by itself, in order, no chaining. -/
def encryptText (t : Tables) (s : List Char) (key10 : Key) : Checked (List Char) :=
  match codePoints s with
  | .ok bs => .ok (characters (bs.map fun b => encrypt t b key10))
  | .error e => .error e

/-- `decryptText(s, key10)` (R181). -/
def decryptText (t : Tables) (s : List Char) (key10 : Key) : Checked (List Char) :=
  match codePoints s with
  | .ok bs => .ok (characters (bs.map fun b => decrypt t b key10))
  | .error e => .error e

/-- The word a port answer carries, if any. -/
def responseWords : Response → List Word
  | .none => []
  | .written => []
  | .data v => [v]

/-- The second computation run on the answer of the first; a stop ends both. -/
def andThen {α β : Type} (o : Host.Outcome α Fault Refusal) (next : α → Host.Outcome β Fault Refusal) :
    Host.Outcome β Fault Refusal :=
  match o with
  | .next a => next a
  | .fault f => .fault f
  | .refused r => .refused r

/-- The machine run on the events `es`, each placed before what is scheduled: the state at the end and the
words the reads returned, in order. -/
def hostRun (es : List Event) (s : State) : Host.Outcome (State × List Word) Fault Refusal :=
  match es with
  | [] => .next (s, [])
  | e :: rest =>
    andThen (step { s with schedule := e :: s.schedule }) fun s1 =>
      andThen (hostRun rest s1) fun r => .next (r.1, responseWords s1.response ++ r.2)

end Sys2Proof.Machine
end

