-- ==== Sys2Proof/Machine/HostCalls.lean ====
section
/-! DEFINITION. D00's entry points as programs of the host, access by access, with their status checks and
the way they fail (spec/30_encoding.md rule R108, spec/70_reset_and_hazards.md rule R265), the host
loop of the text codec (spec/44_text_codec.md rule R183), and a program run with scanner steps between
its accesses (spec/20_memory.md rules R77, R86). No part of the block (log entry 11). -/

namespace Sys2Proof.Machine

/-- A program of the host: accesses, and looks at the wire `irq` (R52), each of which may depend on what those
before it gave. -/
inductive HostProgram (α : Type) where
  | done (a : α)
  | read (off : Offset) (next : Word → HostProgram α)
  | write (off : Offset) (v : Word) (next : HostProgram α)
  | sample (next : Bool → HostProgram α)

/-- The program with `f` applied to what it answers. -/
def mapProgram {α β : Type} (f : α → β) (p : HostProgram α) : HostProgram β :=
  match p with
  | .done a => .done (f a)
  | .read off next => .read off fun w => mapProgram f (next w)
  | .write off v next => .write off v (mapProgram f next)
  | .sample next => .sample fun level => mapProgram f (next level)

/-- `WR <REG>, <value>`, then `next` (R107). -/
def wrThen {α : Type} (r : Reg) (v : Word) (next : HostProgram α) : HostProgram α :=
  .write (regOffset r) v next

/-- `RD <REG>`, then `next` with the word read (R107). -/
def rdThen {α : Type} (r : Reg) (next : Word → HostProgram α) : HostProgram α := .read (regOffset r) next

/-- `CMD <mnemonic>`, then `next` (R107). -/
def cmdThen {α : Type} (i : Instr) (next : HostProgram α) : HostProgram α := wrThen .cmd (encode i) next

/-- The program run on the machine, with `turns n` turns of the scanner before its access number `n` (a look at
`irq` counts as one): every interleaving of the accesses and the scanner steps is some `turns` (R86). -/
def runProgram {α : Type} (turns : Nat → Nat) (p : HostProgram α) (s : State) :
    Host.Outcome (State × α) Fault Refusal :=
  match p with
  | .done a => .next (s, a)
  | .read off next =>
    andThen (hostRun (List.replicate (turns 0) .trial ++ [.read off]) s) fun r =>
      runProgram (fun n => turns (n + 1)) (next (r.2.headD 0)) r.1
  | .write off v next =>
    andThen (hostRun (List.replicate (turns 0) .trial ++ [.write off v]) s) fun r =>
      runProgram (fun n => turns (n + 1)) next r.1
  | .sample next =>
    andThen (hostRun (List.replicate (turns 0) .trial) s) fun r =>
      runProgram (fun n => turns (n + 1)) (next (irq r.1)) r.1

/-! ### The checks -/

/-- STATUS.ERRANY in a status word (R31). -/
def errAnyBit (status : Word) : Bool := status.getLsbD 6

/-- STATUS.KVALID in a status word (R31). -/
def kvalidBit (status : Word) : Bool := status.getLsbD 3

/-- STATUS.LASTOP in a status word (R31). -/
def lastopField (status : Word) : BitVec 2 := status.extractLsb' 4 2

/-- STATUS.SBUSY or STATUS.SDONE in a status word: the check after SEARCH (R108). -/
def searchBits (status : Word) : Bool := status.getLsbD 0 || status.getLsbD 1

/-- The error a failed call reports upward (R265): WidthMismatch where ERR.WIDTH is set, since WIDTH is its
hardware form (R231). The spec gives no typed error for ILLCMD, BUSY and ACCESS (R233) and says nothing of
several bits: that the report is then the raw value of ERR, and that WIDTH goes before the other bits, are
DESIGN CHOICEs (log entry 17). -/
def callError (err : BitVec 4) : DriverError := if err.getLsbD 0 then .widthMismatch else .hardware err

/-- How a call fails (the line "fails" of R108, R265): ERR is read for the cause, 0xF is written to it, the
error is reported (`callError`, log entry 17) and the results are not used. -/
def failCall {α : Type} : HostProgram (Checked α) :=
  rdThen .err fun e => wrThen .err 0xF (.done (.error (callError (e.setWidth 4))))

/-- The call when a driver's own check has passed; else its error, before any access (R265, R184). -/
def checkedThen {α β : Type} (c : Checked α) (call : α → HostProgram (Checked β)) :
    HostProgram (Checked β) :=
  match c with
  | .ok a => call a
  | .error e => .done (.error e)

/-! ### The engine's calls -/

/-- The sequence of `generateSubkeys` on an operand word, which the block refuses if it is too wide (R231). -/
def subkeysCall (k : Word) : HostProgram (Checked (Block × Block)) :=
  wrThen .key k <| cmdThen .keygen <| rdThen .status fun status =>
    if kvalidBit status && !errAnyBit status then
      rdThen .k1 fun k1 => rdThen .k2 fun k2 => .done (.ok (k1.setWidth 8, k2.setWidth 8))
    else failCall

/-- `generateSubkeys(k)` (R108, R265). -/
def generateSubkeys (k : Key) : HostProgram (Checked (Block × Block)) := subkeysCall (k.setWidth 32)

/-- The sequence that `encryptBlock` and `decryptBlock` share, on operand words: the command `i` and the LASTOP
it leaves. -/
def blockCall (i : Instr) (op : BitVec 2) (x k : Word) : HostProgram (Checked Block) :=
  wrThen .key k <| wrThen .din x <| cmdThen i <| rdThen .status fun status =>
    if lastopField status == op && !errAnyBit status then
      rdThen .dout fun y => .done (.ok (y.setWidth 8))
    else failCall

/-- `encryptBlock(p, k)` (R108, R265). -/
def encryptBlock (p : Block) (k : Key) : HostProgram (Checked Block) :=
  blockCall .enc 1 (p.setWidth 32) (k.setWidth 32)

/-- `decryptBlock(c, k)` (R108, R265). -/
def decryptBlock (c : Block) (k : Key) : HostProgram (Checked Block) :=
  blockCall .dec 2 (c.setWidth 32) (k.setWidth 32)

/-! ### The key search -/

/-- What `bruteForce` answers: the percentages given to `onProgress`, in order, and the keys; or, where the
polls it was given ran out with the scan still running, the percentages so far. -/
inductive SearchAnswer where
  | found (reports : List Word) (keys : List Key)
  | waiting (reports : List Word)
deriving DecidableEq, Repr

/-- `RD MATCH[i]` for each index of a list, the keys appended to `keys` (R108, R204). -/
def readKeys (indices : List Nat) (keys : List Key) (answer : List Key → SearchAnswer) :
    HostProgram (Checked SearchAnswer) :=
  match indices with
  | [] => .done (.ok (answer keys))
  | i :: rest =>
    .read (matchOffset (BitVec.ofNat 10 i)) fun w => readKeys rest (keys ++ [w.setWidth 10]) answer

/-- The calls of `onProgress` once the scan is done: a last `onProgress(100)` if the last `RD PROGRESS` did
not return 100 (R108). -/
def lastReport (reports : List Word) : List Word :=
  if reports.getLast? = some 100 then reports else reports ++ [100]

/-- The end of `bruteForce`, after SDONE = 1: IP is cleared and the result read (R108, R204). -/
def collectKeys (reports : List Word) : HostProgram (Checked SearchAnswer) :=
  wrThen .ip 3 <| rdThen .mcount fun m =>
    readKeys (List.range m.toNat) [] (.found (lastReport reports))

/-- How a host waits for the end of a scan (R265, "wait for SDONE=1 or irq"): it asks STATUS again and again
(R108), or it looks at `irq` and asks only while the wire is 1 (R243). A host that waits for `irq` has written
IE beforehand (R264). -/
inductive Wait where
  | polling
  | interrupt
deriving DecidableEq, Repr

/-- One turn of the wait: `served`, or, while the wire `irq` that the host waits for is 0, `quiet`. -/
def waitThen {α : Type} (wait : Wait) (served quiet : HostProgram α) : HostProgram α :=
  match wait with
  | .polling => served
  | .interrupt => .sample fun level => if level then served else quiet

/-- The loop of `bruteForce`, at most `polls` times: the wait, then a pending report is taken and acknowledged
and STATUS is read, until SDONE = 1 (R108, R265). -/
def pollSearch (wait : Wait) (polls : Nat) (reports : List Word) : HostProgram (Checked SearchAnswer) :=
  match polls with
  | 0 => .done (.ok (.waiting reports))
  | n + 1 =>
    let untilDone (seen : List Word) : HostProgram (Checked SearchAnswer) :=
      rdThen .status fun status =>
        if status.getLsbD 1 then collectKeys seen else pollSearch wait n seen
    let served := rdThen .ip fun ip =>
      if ip.getLsbD 1 then
        rdThen .progress fun percent => wrThen .ip 2 (untilDone (reports ++ [percent]))
      else untilDone reports
    waitThen wait served (pollSearch wait n reports)

/-- The sequence of `bruteForce` on operand words, which the block refuses if they are too wide (R210): old
events are cleared first, since SEARCH keeps them (R270). -/
def searchCall (wait : Wait) (polls : Nat) (p c : Word) : HostProgram (Checked SearchAnswer) :=
  wrThen .ip 3 <| wrThen .spt p <| wrThen .sct c <| cmdThen .search <|
    rdThen .status fun status =>
      if searchBits status && !errAnyBit status then pollSearch wait polls [] else failCall

/-- `bruteForce(p, c, onProgress)` with at most `polls` turns of its loop (R108, R265). -/
def bruteForce (wait : Wait) (polls : Nat) (p c : Block) : HostProgram (Checked SearchAnswer) :=
  searchCall wait polls (p.setWidth 32) (c.setWidth 32)

/-! ### The text codec -/

/-- The accesses for each block in order, the results appended to `out`, then `finish` (R183). -/
def codecBlocks (i : Instr) (blocks out : List Block)
    (finish : List Block → HostProgram (Checked (List Block))) :
    HostProgram (Checked (List Block)) :=
  match blocks with
  | [] => finish out
  | b :: rest =>
    wrThen .din (b.setWidth 32) <| cmdThen i <| rdThen .dout fun d =>
      codecBlocks i rest (out ++ [d.setWidth 8]) finish

/-- The host loop of the text codec, with ENC or DEC (R183): KEY is written once, and where ERRANY is not 0 at
the end the whole result is void. The codec then fails as the other calls do, ERR read and acknowledged, which
R183 does not say (DESIGN CHOICE, log entry 11). -/
def codec (i : Instr) (k : Key) (blocks : List Block) : HostProgram (Checked (List Block)) :=
  wrThen .key (k.setWidth 32) <| codecBlocks i blocks [] fun out =>
    rdThen .status fun status => if errAnyBit status then failCall else .done (.ok out)

/-- A result given back as a string (R182). -/
def asText (c : Checked (List Block)) : Checked (List Char) :=
  match c with
  | .ok bs => .ok (characters bs)
  | .error e => .error e

/-- A text through the block: every code point is checked before the first write (R184), then the loop. -/
def textCall (i : Instr) (s : List Char) (k : Key) : HostProgram (Checked (List Char)) :=
  checkedThen (codePoints s) fun bs => mapProgram asText (codec i k bs)

/-! ### The entry points on D00's bit strings -/

/-- `generateSubkeys` with its strict-width validation (R231, R232). -/
def callGenerateSubkeys (k : List Char) : HostProgram (Checked (Block × Block)) :=
  checkedThen (parseBits 10 k) generateSubkeys

/-- `encryptBlock` with its strict-width validation (R231, R232). -/
def callEncryptBlock (p k : List Char) : HostProgram (Checked Block) :=
  checkedThen (parseBits 8 p) fun x => checkedThen (parseBits 10 k) (encryptBlock x)

/-- `decryptBlock` with its strict-width validation (R231, R232). -/
def callDecryptBlock (c k : List Char) : HostProgram (Checked Block) :=
  checkedThen (parseBits 8 c) fun x => checkedThen (parseBits 10 k) (decryptBlock x)

/-- `bruteForce` with its strict-width validation (R231, R232, R210). -/
def callBruteForce (wait : Wait) (polls : Nat) (p c : List Char) : HostProgram (Checked SearchAnswer) :=
  checkedThen (parseBits 8 p) fun x => checkedThen (parseBits 8 c) (bruteForce wait polls x)

end Sys2Proof.Machine
end

