-- ==== Sys2Proof/Safety.lean ====
section
/-! DEFINITION. What holds in every state a run reaches (spec/10_state.md rule R50), in the terms the
statements use. -/

namespace Sys2Proof.Machine

/-- The engine's results belong to the operands (R50 items 1 and 2). -/
structure EngineInv (s : State) : Prop where
  /-- Item 1: KVALID means that K1 and K2 are the subkeys of KEY. -/
  subkeys : s.kvalid = true → (s.k1, s.k2) = keySchedule s.cfg.tables s.key
  /-- Item 2: LASTOP = 1 means that DOUT is the encryption of DIN under KEY. -/
  encrypted : s.lastop = 1 → s.dout = encrypt s.cfg.tables s.din s.key
  /-- Item 2: LASTOP = 2 means that DOUT is the decryption of DIN under KEY. -/
  decrypted : s.lastop = 2 → s.dout = decrypt s.cfg.tables s.din s.key
  /-- Item 2: LASTOP is never 3. -/
  lastop_legal : s.lastop ≠ 3
  /-- Item 2: a valid DOUT comes with valid subkeys. -/
  lastop_kvalid : s.lastop ≠ 0 → s.kvalid = true

/-- The scanner's flags and counters agree (R50 items 3 to 6). -/
structure ScanInv (s : State) : Prop where
  /-- Item 3: at most one of SBUSY, SDONE, SABORT is 1. -/
  busy_not_done : s.sbusy = true → s.sdone = false
  busy_not_aborted : s.sbusy = true → s.sabort = false
  done_not_aborted : s.sdone = true → s.sabort = false
  /-- Item 4. -/
  busy_kcnt : s.sbusy = true → s.kcnt.toNat ≤ 1023
  done_kcnt : s.sdone = true → s.kcnt.toNat = 1024
  /-- Item 5. -/
  mcount_le : s.mcount.toNat ≤ s.kcnt.toNat
  kcnt_le : s.kcnt.toNat ≤ 1024
  /-- Item 6. -/
  progress_le : s.progress.toNat ≤ 100
  /-- While a scan runs, no report is ahead of the keys tested (R198, R201). -/
  progress_kcnt : s.sbusy = true → s.progress.toNat ≤ s.kcnt.toNat * 100 / 1024
  progress_done : s.progress.toNat = 100 ↔ s.sdone = true

/-- The result memory (R37, R50 items 7 and 8): in canonical form, every visible cell written, and the
result sequence the ascending list of the matching keys tested so far, for the pair of the most recent
scan, which while the scan runs is (SPT, SCT). `PairInv` says item 7 in full, with its history (log entry
12). -/
structure MatchInv (s : State) : Prop where
  wf : matchWf s.matchMem = true
  written : ∀ i < s.mcount.toNat, (matchRead s.matchMem i).isSome = true
  result : ∃ p c : Block, matchList s = matchesBelow s.cfg.tables p c s.kcnt.toNat
    ∧ (s.sbusy = true → p = s.spt ∧ c = s.sct)

/-- The invariant of the machine: a configuration that meets R8 and R48, and R50. -/
structure StateInv (s : State) : Prop where
  cfg : s.cfg.wf = true
  engine : EngineInv s
  scan : ScanInv s
  results : MatchInv s

/-- The state answers a next state: no fault and no refusal. -/
def Runs (s : State) : Prop := ∃ t, step s = .next t

/-- The engine's part of the state: what KEYGEN, ENC, DEC and writes to KEY and DIN may change. -/
def sameEngine (s t : State) : Prop :=
  t.key = s.key ∧ t.din = s.din ∧ t.dout = s.dout ∧ t.k1 = s.k1 ∧ t.k2 = s.k2
    ∧ t.kvalid = s.kvalid ∧ t.lastop = s.lastop

/-- The scanner's part of the state: its operands, counters, flags and results. -/
def sameScanner (s t : State) : Prop :=
  t.spt = s.spt ∧ t.sct = s.sct ∧ t.kcnt = s.kcnt ∧ t.mcount = s.mcount ∧ t.progress = s.progress
    ∧ t.sbusy = s.sbusy ∧ t.sdone = s.sdone ∧ t.sabort = s.sabort ∧ t.matchMem = s.matchMem

/-- An event that cannot restart or wipe a scan's results: it is no reset, and no write to CMD of SEARCH or
SRST. -/
def keepsResults : Event → Bool
  | .read _ => true
  | .write off v =>
    !(targetOf off == .reg .cmd && (decode v == .command .search || decode v == .command .srst))
  | .reset => false
  | .trial => true

/-- An event that cannot end a scan: it is no reset, and no write to CMD of ABORT or SRST. A write of SEARCH is
none that ends a scan (R193). -/
def endsNoScan : Event → Bool
  | .read _ => true
  | .write off v =>
    !(targetOf off == .reg .cmd && (decode v == .command .abort || decode v == .command .srst))
  | .reset => false
  | .trial => true

/-- An event that can neither end a scan nor restart one. -/
def leavesScan (e : Event) : Bool := keepsResults e && endsNoScan e

/-- The next step is the scanner's turn: the next event is a trial slot, or nothing is scheduled (log
entry 3). -/
def scannersTurn (s : State) : Prop := s.schedule = [] ∨ ∃ rest, s.schedule = .trial :: rest

/-- An event that is a write to SPT or SCT, accepted or refused. -/
def writesPair : Event → Bool
  | .read _ => false
  | .write off _ => targetOf off == .reg .spt || targetOf off == .reg .sct
  | .reset => false
  | .trial => false

/-- Whether SPT or SCT have been written since the most recent SEARCH executed (R50 item 7), after a step from
`s`, where `written` says so before it. A refused write writes nothing (R27), a SEARCH that is dropped or raises
BUSY does not execute (R101), and reset and SRST begin a new history. -/
def pairWritten (written : Bool) (s : State) : Bool :=
  match s.schedule with
  | [] => written
  | .read _ :: _ => written
  | .trial :: _ => written
  | .reset :: _ => false
  | .write off v :: _ =>
    match targetOf off with
    | .reg .spt => written || (!s.sbusy && !tooWide 8 v)
    | .reg .sct => written || (!s.sbusy && !tooWide 8 v)
    | .reg .cmd =>
      if decode v = .command .search then written && (s.err != 0 || s.sbusy)
      else written && decode v != .command .srst
    | _ => written

/-- The invariant with the history that item 7 of R50 speaks of: `written` says whether SPT or SCT have been
written since the most recent SEARCH executed. -/
structure PairInv (written : Bool) (s : State) : Prop where
  inv : StateInv s
  /-- Item 7: while they have not been, MATCH holds the matches of (SPT, SCT) among the keys tested, whether the
  scan is running, completed or aborted. -/
  result : written = false → matchList s = matchesBelow s.cfg.tables s.spt s.sct s.kcnt.toNat
  /-- Item 7's remark: while a scan runs they have not been (R27). -/
  busy : s.sbusy = true → written = false

/-- The scanner's turns between a host program's accesses cannot stop the machine: the invariant holds, or
there are none. -/
def turnsSafe (turns : Nat → Nat) (s : State) : Prop := StateInv s ∨ ∀ n, turns n = 0

end Sys2Proof.Machine
end

