-- ==== Sys2Proof/Certificates/Slice0/Obligations.lean ====
section
/-! DEFINITION. The statements for the provers. Each docstring names the rule of spec/ it formalises. -/

section
open Sys2Proof Sys2Proof.Machine

/-! ### Encoding and decoding -/

/-- R101, R102: decoding the word of a command gives the command, and no other word decodes to it. -/
def Obligations.DecodeAndEncodeAgree : Prop :=
  (∀ i : Instr, i.wf = true → decode (encode i) = .command i)
    ∧ ∀ (v : Word) (i : Instr), decode v = .command i → v = encode i

/-- R102: the words of the opcode map, written out, decode to their commands; R104: the next word and a word
with a reserved bit set are illegal. -/
def Obligations.OpcodeMapWordsDecode : Prop :=
  decode 0x00000000 = .command .nop ∧ decode 0x00000001 = .command .keygen
    ∧ decode 0x00000002 = .command .enc ∧ decode 0x00000003 = .command .dec
    ∧ decode 0x00000004 = .command .search ∧ decode 0x00000005 = .command .abort
    ∧ decode 0x00000006 = .command .srst ∧ decode 0x00000007 = .illegal .undefinedOp
    ∧ decode 0x0000000F = .illegal .undefinedOp ∧ decode 0x00000012 = .illegal .reservedBits
    ∧ decode 0x80000002 = .illegal .reservedBits

/-- R104: a write to CMD with a bit of 31:4 set, or with OP in 0x7 .. 0xF, sets ERR.ILLCMD and does nothing
else, whatever ERR holds; `2^32 - 7` words are of this kind. -/
def Obligations.IllegalWordsRaiseIllcmdOnly : Prop :=
  (∀ (s : State) (v : Word), v.extractLsb' 4 28 ≠ 0 ∨ 7 ≤ (v.extractLsb' 0 4).toNat →
      memWrite 0x0004 v s = .next { s with err := s.err ||| 0b0010 })
    ∧ (Finset.univ.filter fun v : Word =>
        v.extractLsb' 4 28 ≠ 0 ∨ 7 ≤ (v.extractLsb' 0 4).toNat).card = 2 ^ 32 - 7

/-! ### Steps -/

/-- R15, R36, R86: when the next event is a write to CMD of a word that decodes to a well-formed command, the
step is that command, on the state with the event taken and the write acknowledged. -/
def Obligations.StepRunsTheDecodedCommand : Prop :=
  ∀ (s : State) (rest : List Event) (v : Word) (i : Instr),
    s.schedule = .write 0x0004 v :: rest → decode v = .command i → i.wf = true →
      step s = exec i { s with schedule := rest, response := .written }

/-- The host's entry: a table row's word placed by `withFetchWord` is what the very next step runs (log
entries 2 and 9). -/
def Obligations.PlacedWordRunsNext : Prop :=
  ∀ (s : State) (w : Nat) (i : Instr), w < 2 ^ 32 → decodeTableWord 32 w = some i →
    step (s.withFetchWord 32 w) = exec i { s with response := .written }

/-- R15, R86, R250, R281: what a step does for each kind of next event, and when nothing is scheduled. That a
silent host leaves the turn to the scanner is the model's choice (log entry 3). -/
def Obligations.StepTakesTheNextEvent : Prop :=
  ∀ (s : State) (rest : List Event) (off : Offset) (v : Word),
    (s.schedule = .read off :: rest → ∃ t : State,
      memRead off { s with schedule := rest, response := .none } = ((memRead off s).1, t)
        ∧ step s = .next { t with response := .data (memRead off s).1 })
    ∧ (s.schedule = .write off v :: rest →
        step s = memWrite off v { s with schedule := rest, response := .written })
    ∧ (s.schedule = .reset :: rest →
        step s = .next { State.reset with cfg := s.cfg, schedule := rest })
    ∧ (s.schedule = .trial :: rest → s.sbusy = true →
        step s = trial { s with schedule := rest, response := .none })
    ∧ (s.schedule = .trial :: rest → s.sbusy = false →
        step s = .next { s with schedule := rest, response := .none })
    ∧ (s.schedule = [] → s.sbusy = true → step s = trial { s with response := .none })
    ∧ (s.schedule = [] → s.sbusy = false → step s = .next { s with response := .none })

/-! ### Commands -/

/-- R221: NOP, word 0x00000000, changes no state at all. -/
def Obligations.NopChangesNothing : Prop :=
  decode 0x00000000 = .command .nop ∧ ∀ s : State, exec .nop s = .next s

/-- R146: KEYGEN, word 0x00000001, writes `KS(KEY)` to K1 and K2 and sets KVALID, in every state with ERR = 0,
and changes nothing else; it is dropped while ERR is not 0; twice is as once; after reset it computes (0, 0);
the worked example. -/
def Obligations.KeygenDerivesTheSubkeys : Prop :=
  decode 0x00000001 = .command .keygen
    ∧ (∀ s : State, s.err = 0 → exec .keygen s = .next { s with
        k1 := (keySchedule s.cfg.tables s.key).1
        k2 := (keySchedule s.cfg.tables s.key).2
        kvalid := true })
    ∧ (∀ s : State, s.err ≠ 0 → exec .keygen s = .next s)
    ∧ (∀ s : State, s.err = 0 → ∃ t, exec .keygen s = .next t ∧ exec .keygen t = .next t)
    ∧ exec .keygen State.reset = .next { State.reset with k1 := 0, k2 := 0, kvalid := true }
    ∧ ∃ t, hostRun [wr .key 0x282, cmd .keygen, rd .k1, rd .k2, rd .status] State.reset
        = .next (t, [0x000000A4, 0x00000043, 0x00000008])

/-- R171: ENC, word 0x00000002, writes `Encrypt(DIN, KEY)` to DOUT and the subkeys derived afresh from KEY,
sets KVALID and LASTOP = 1, in every state with ERR = 0, and changes nothing else; it is dropped while ERR is
not 0; twice is as once; the two worked examples. -/
def Obligations.EncEncryptsDin : Prop :=
  decode 0x00000002 = .command .enc
    ∧ (∀ s : State, s.err = 0 → exec .enc s = .next { s with
        dout := crypt s.cfg.tables s.din (keySchedule s.cfg.tables s.key).1
          (keySchedule s.cfg.tables s.key).2
        k1 := (keySchedule s.cfg.tables s.key).1
        k2 := (keySchedule s.cfg.tables s.key).2
        kvalid := true
        lastop := 1 })
    ∧ (∀ s : State, s.err ≠ 0 → exec .enc s = .next s)
    ∧ (∀ s : State, s.err = 0 → ∃ t, exec .enc s = .next t ∧ exec .enc t = .next t)
    ∧ (∃ t, hostRun [cmd .enc, rd .dout] State.reset = .next (t, [0x000000F0]))
    ∧ ∃ t, hostRun [wr .key 0x282, wr .din 0xA5, cmd .enc, rd .dout, rd .k1, rd .k2, rd .status]
        State.reset = .next (t, [0x000000CA, 0x000000A4, 0x00000043, 0x00000018])

/-- R172: DEC, word 0x00000003, is ENC with the subkeys used in the other order: DOUT becomes `Decrypt(DIN,
KEY)`, K1 and K2 receive the pair in schedule order, LASTOP becomes 2; the worked example. -/
def Obligations.DecDecryptsDin : Prop :=
  decode 0x00000003 = .command .dec
    ∧ (∀ s : State, s.err = 0 → exec .dec s = .next { s with
        dout := crypt s.cfg.tables s.din (keySchedule s.cfg.tables s.key).2
          (keySchedule s.cfg.tables s.key).1
        k1 := (keySchedule s.cfg.tables s.key).1
        k2 := (keySchedule s.cfg.tables s.key).2
        kvalid := true
        lastop := 2 })
    ∧ (∀ s : State, s.err ≠ 0 → exec .dec s = .next s)
    ∧ (∀ s : State, s.err = 0 → ∃ t, exec .dec s = .next t ∧ exec .dec t = .next t)
    ∧ ∃ t, hostRun [wr .key 0x282, wr .din 0xCA, cmd .dec, rd .dout, rd .status] State.reset
        = .next (t, [0x000000A5, 0x00000028])

/-- R192, with the checks of R101: SEARCH, word 0x00000004, in a state with ERR = 0 and SBUSY = 0, sets the
counters to 0 and SBUSY to 1, clears SDONE and SABORT, empties the result sequence and changes no other
register, IP among them; while ERR is not 0 it is dropped (R238) and while a scan runs it raises BUSY (R193);
the worked example. That the hidden MATCH cells keep what they held is the model's choice (log entry 7): R37
leaves open whether SEARCH erases them. -/
def Obligations.SearchStartsAScan : Prop :=
  decode 0x00000004 = .command .search
    ∧ (∀ s : State, s.err = 0 → s.sbusy = false → ∃ t, exec .search s = .next t ∧ t = { s with
        kcnt := 0
        mcount := 0
        progress := 0
        sdone := false
        sabort := false
        sbusy := true } ∧ matchList t = [])
    ∧ (∀ s : State, s.err ≠ 0 → exec .search s = .next s)
    ∧ (∀ s : State, s.err = 0 → s.sbusy = true →
        exec .search s = .next { s with err := s.err ||| 0b0100 })
    ∧ ∃ t, hostRun [wr .spt 0xA5, wr .sct 0xCA, cmd .search, rd .status, rd .kcnt, rd .mcount,
        rd .progress] State.reset = .next (t, [0x00000001, 0, 0, 0])

/-- R193, R238: SEARCH while a scan runs sets ERR.BUSY and does nothing else, and the commands that follow are
dropped. -/
def Obligations.SearchWhileBusyRaisesBusy : Prop :=
  ∀ s : State, s.err = 0 → s.sbusy = true → ∃ t, exec .search s = .next t
    ∧ t = { s with err := 0b0100 }
    ∧ exec .keygen t = .next t ∧ exec .enc t = .next t ∧ exec .dec t = .next t
    ∧ exec .search t = .next t

/-- R203, R220: ABORT, word 0x00000005, stops a running scan and sets SABORT, whatever ERR holds, and changes
nothing else; with no scan it changes nothing. -/
def Obligations.AbortStopsTheScan : Prop :=
  decode 0x00000005 = .command .abort
    ∧ (∀ s : State, s.sbusy = true →
        exec .abort s = .next { s with sbusy := false, sabort := true })
    ∧ ∀ s : State, s.sbusy = false → exec .abort s = .next s

/-- R222: SRST, word 0x00000006, makes every bit of state 0, whatever the state was; the interrupt output is
then 0. The configuration, the events still to come and the port's answer are not the block's state. -/
def Obligations.SrstClearsEveryBit : Prop :=
  decode 0x00000006 = .command .srst
    ∧ ∀ s : State, ∃ t, exec .srst s = .next t
        ∧ t = { key := 0, din := 0, dout := 0, k1 := 0, k2 := 0, spt := 0, sct := 0, kcnt := 0
                mcount := 0, progress := 0, sbusy := false, sdone := false, sabort := false
                kvalid := false, lastop := 0, err := 0, ie := 0, ip := 0, matchMem := []
                cfg := s.cfg, schedule := s.schedule, response := s.response }
        ∧ irq t = false ∧ statusWord t = 0
        ∧ runEvent .reset s = .next t

/-- R238, R220: while ERR is not 0, KEYGEN, ENC, DEC and SEARCH change no state at all, STATUS.ERRANY reads 1,
and NOP, ABORT and SRST do what they do with ERR = 0, ERR itself apart. -/
def Obligations.LockOutDropsFourCommands : Prop :=
  ∀ s : State, s.err ≠ 0 →
    exec .keygen s = .next s ∧ exec .enc s = .next s ∧ exec .dec s = .next s
      ∧ exec .search s = .next s ∧ (statusWord s).getLsbD 6 = true
      ∧ (∀ i ∈ [Instr.nop, Instr.abort], ∃ t, exec i { s with err := 0 } = .next t
          ∧ exec i s = .next { t with err := s.err })
      ∧ exec .srst s = exec .srst { s with err := 0 }

/-- R103 (the table's column "writes"): no word of the window outside the ones named changes, whatever it is
read at, and the configuration and the port are left alone. The one clause on the hidden MATCH cells, that
SEARCH keeps them, is no rule: it is the model's choice (log entry 7), as R37 leaves open whether SEARCH
erases them. -/
def Obligations.CommandsChangeOnlyTheirWords : Prop :=
  ∀ (s t : State) (i : Instr) (off : Offset), exec i s = .next t →
    (i = .nop → (memRead off t).1 = (memRead off s).1)
    ∧ (i = .keygen → off ∉ [0x0008, 0x001C, 0x0020] → (memRead off t).1 = (memRead off s).1)
    ∧ (i = .enc ∨ i = .dec → off ∉ [0x0008, 0x0018, 0x001C, 0x0020] →
        (memRead off t).1 = (memRead off s).1)
    ∧ (i = .search → off.toNat < 0x1000 → off ∉ [0x0008, 0x000C, 0x002C, 0x0030, 0x0034] →
        (memRead off t).1 = (memRead off s).1)
    ∧ (i = .search → ∀ j, matchCell t j = matchCell s j)
    ∧ (i = .abort → off ≠ 0x0008 → (memRead off t).1 = (memRead off s).1)
    ∧ t.cfg = s.cfg ∧ t.schedule = s.schedule ∧ t.response = s.response

/-! ### Host accesses -/

/-- R81: what a host read returns at every good offset; it changes nothing, in every state. -/
def Obligations.MemReadReturnsTheFields : Prop :=
  ∀ s : State,
    memRead 0x0000 s = (0x53444553, s)
    ∧ memRead 0x0004 s = (0, s)
    ∧ (∃ w : Word, memRead 0x0008 s = (w, s)
        ∧ w.toNat = s.sbusy.toNat + 2 * s.sdone.toNat + 4 * s.sabort.toNat + 8 * s.kvalid.toNat
            + 16 * s.lastop.toNat + 64 * (if s.err = 0 then 0 else 1))
    ∧ memRead 0x000C s = (s.err.setWidth 32, s)
    ∧ memRead 0x0010 s = (s.key.setWidth 32, s)
    ∧ memRead 0x0014 s = (s.din.setWidth 32, s)
    ∧ memRead 0x0018 s = (s.dout.setWidth 32, s)
    ∧ memRead 0x001C s = (s.k1.setWidth 32, s)
    ∧ memRead 0x0020 s = (s.k2.setWidth 32, s)
    ∧ memRead 0x0024 s = (s.spt.setWidth 32, s)
    ∧ memRead 0x0028 s = (s.sct.setWidth 32, s)
    ∧ memRead 0x002C s = (s.kcnt.setWidth 32, s)
    ∧ memRead 0x0030 s = (s.mcount.setWidth 32, s)
    ∧ memRead 0x0034 s = (s.progress.setWidth 32, s)
    ∧ memRead 0x0038 s = (s.ie.setWidth 32, s)
    ∧ memRead 0x003C s = (s.ip.setWidth 32, s)
    ∧ ∀ i < 1024, memRead (BitVec.ofNat 13 (0x1000 + 4 * i)) s
        = (if i < s.mcount.toNat then 0x80000000 ||| (matchCell s i).setWidth 32 else 0, s)

/-- R79: an access at a misaligned or unmapped offset sets ERR.ACCESS and changes nothing else; a read returns
0. -/
def Obligations.BadOffsetsRaiseAccessOnly : Prop :=
  ∀ (s : State) (off : Offset) (v : Word),
    off.extractLsb' 0 2 ≠ 0 ∨ (0x0040 ≤ off.toNat ∧ off.toNat ≤ 0x0FFF) →
      memRead off s = (0, { s with err := s.err ||| 0b1000 })
      ∧ memWrite off v s = .next { s with err := s.err ||| 0b1000 }

/-- R80: a write to a read-only register or to any MATCH offset sets ERR.ACCESS and changes nothing else. -/
def Obligations.ReadOnlyWritesRaiseAccessOnly : Prop :=
  ∀ (s : State) (off : Offset) (v : Word),
    off ∈ [0x0000, 0x0008, 0x0018, 0x001C, 0x0020, 0x002C, 0x0030, 0x0034]
      ∨ (∃ i < 1024, off.toNat = 0x1000 + 4 * i) →
      memWrite off v s = .next { s with err := s.err ||| 0b1000 }

/-- R82 (with R22, R23, R27, R32, R33, R34, R101 for the single registers): what a host write does at every
good offset. -/
def Obligations.MemWriteActsByOffset : Prop :=
  ∀ (s : State) (v : Word),
    (∀ off : Offset, off ∈ [0x0000, 0x0008, 0x0018, 0x001C, 0x0020, 0x002C, 0x0030, 0x0034]
        ∨ (∃ i < 1024, off.toNat = 0x1000 + 4 * i) →
        memWrite off v s = .next { s with err := s.err ||| 0b1000 })
    ∧ (∀ i, decode v = .command i → memWrite 0x0004 v s = exec i s)
    ∧ (∀ e, decode v = .illegal e → memWrite 0x0004 v s = .next { s with err := s.err ||| 0b0010 })
    ∧ memWrite 0x000C v s = .next { s with err := s.err &&& ~~~ v.setWidth 4 }
    ∧ (v.toNat < 2 ^ 10 → memWrite 0x0010 v s
        = .next { s with key := v.setWidth 10, kvalid := false, lastop := 0 })
    ∧ (2 ^ 10 ≤ v.toNat → memWrite 0x0010 v s = .next { s with err := s.err ||| 0b0001 })
    ∧ (v.toNat < 2 ^ 8 → memWrite 0x0014 v s = .next { s with din := v.setWidth 8, lastop := 0 })
    ∧ (2 ^ 8 ≤ v.toNat → memWrite 0x0014 v s = .next { s with err := s.err ||| 0b0001 })
    ∧ (s.sbusy = true → memWrite 0x0024 v s = .next { s with err := s.err ||| 0b0100 }
        ∧ memWrite 0x0028 v s = .next { s with err := s.err ||| 0b0100 })
    ∧ (s.sbusy = false → v.toNat < 2 ^ 8 →
        memWrite 0x0024 v s = .next { s with spt := v.setWidth 8 }
          ∧ memWrite 0x0028 v s = .next { s with sct := v.setWidth 8 })
    ∧ (s.sbusy = false → 2 ^ 8 ≤ v.toNat →
        memWrite 0x0024 v s = .next { s with err := s.err ||| 0b0001 }
          ∧ memWrite 0x0028 v s = .next { s with err := s.err ||| 0b0001 })
    ∧ memWrite 0x0038 v s = .next { s with ie := v.setWidth 3 }
    ∧ memWrite 0x003C v s = .next { s with ip := s.ip &&& ~~~ v.setWidth 2 }

/-! ### Errors and the interrupt -/

/-- R236, R239: a host access that sets an ERR bit sets one bit and does nothing else: the state is the one
before, plus the bit. -/
def Obligations.ErrorsArePrecise : Prop :=
  ∀ (s t : State) (off : Offset) (v : Word),
    memWrite off v s = .next t ∨ (memRead off s).2 = t →
    (∃ c, s.err.getLsbD c = false ∧ t.err.getLsbD c = true) →
      ∃ c < 4, t = { s with err := s.err ||| (1#4 <<< c) }

/-- R32, R240: an ERR bit, once set, stays set through every step but a reset, SRST, and a host write to ERR
with a 1 at that bit. -/
def Obligations.ErrBitsAreSticky : Prop :=
  ∀ (s t : State) (c : Nat), step s = .next t → s.err.getLsbD c = true → t.err.getLsbD c = false →
    ∃ rest, s.schedule = .reset :: rest
      ∨ s.schedule = .write 0x0004 0x00000006 :: rest
      ∨ ∃ v : Word, s.schedule = .write 0x000C v :: rest ∧ v.getLsbD c = true

/-- R240, R238: acknowledging every set bit ends the lock-out, and the command written next runs. -/
def Obligations.AcknowledgingEndsTheLockOut : Prop :=
  ∀ (s : State) (v : Word), s.err &&& ~~~ v.setWidth 4 = 0 →
    ∃ t, memWrite 0x000C v s = .next t ∧ t = { s with err := 0 }
      ∧ exec .enc t = .next { encEffect s with err := 0 }

/-- R52: the interrupt output is this function of IE, IP and ERR. -/
def Obligations.IrqIsALevelOfTheState : Prop :=
  ∀ s : State, irq s = true ↔
    (s.ie.getLsbD 0 = true ∧ s.ip.getLsbD 0 = true)
      ∨ (s.ie.getLsbD 1 = true ∧ s.ip.getLsbD 1 = true)
      ∨ (s.ie.getLsbD 2 = true ∧ s.err ≠ 0)

/-- R34, R241: IP.DONE rises only in the trial of key 1023, IP.PROG only in a trial that reports: such a step
is the scanner's turn and advances KCNT, which no host access does. A pending bit falls only by a reset, SRST,
or a host write to IP with a 1 at that bit. -/
def Obligations.PendingBitsRiseOnlyInTrials : Prop :=
  ∀ (s t : State) (c : Nat), step s = .next t →
    (s.ip.getLsbD 0 = false → t.ip.getLsbD 0 = true →
      scannersTurn s ∧ s.sbusy = true ∧ s.kcnt.toNat = 1023 ∧ t.kcnt.toNat = s.kcnt.toNat + 1
        ∧ t.sdone = true)
    ∧ (s.ip.getLsbD 1 = false → t.ip.getLsbD 1 = true →
      scannersTurn s ∧ s.sbusy = true ∧ t.kcnt.toNat = s.kcnt.toNat + 1
        ∧ (s.kcnt.toNat % s.cfg.progInterval = 0 ∨ s.kcnt.toNat = 1023))
    ∧ (s.ip.getLsbD c = true → t.ip.getLsbD c = false →
      ∃ rest, s.schedule = .reset :: rest
        ∨ s.schedule = .write 0x0004 0x00000006 :: rest
        ∨ ∃ v : Word, s.schedule = .write 0x003C v :: rest ∧ v.getLsbD c = true)

/-! ### The cipher -/

/-- R121: an output position of permute is the input position its table entry names, in D00's position
numbering and in index numbering. -/
def Obligations.PermuteFollowsItsTable : Prop :=
  ∀ (m n : Nat) (v : BitVec m) (t : PermTable m n) (q : Nat) (_ : 1 ≤ q) (h : q - 1 < n),
    bitAt (permute v t) q = bitAt v ((t[q - 1]'h).val + 1)
      ∧ (permute v t).getLsbD (n - q) = v.getLsbD (m - ((t[q - 1]'h).val + 1))

/-- R123: rotateLeft by positions, by indexes and as numbers, its corner cases and worked examples. -/
def Obligations.RotateLeftIsCircular : Prop :=
  (∀ (w : Nat) (v : BitVec w) (n : Nat), 0 < w →
      (∀ p, 1 ≤ p → p ≤ w →
        bitAt (rotateLeft v n) p = bitAt v ((p - 1 + n % w) % w + 1))
      ∧ (∀ i < w, (rotateLeft v n).getLsbD i = v.getLsbD ((i + (w - n % w)) % w))
      ∧ (0 < n % w → (rotateLeft v n).toNat
          = ((v.toNat <<< (n % w)) ||| (v.toNat >>> (w - n % w))) % 2 ^ w)
      ∧ (n % w = 0 → rotateLeft v n = v)
      ∧ rotateLeft v 0 = v ∧ rotateLeft v w = v
      ∧ (∀ b, rotateLeft (rotateLeft v n) b = rotateLeft v (n + b))
      ∧ rotateLeft (0#w) n = 0#w ∧ rotateLeft (BitVec.allOnes w) n = BitVec.allOnes w)
    ∧ rotateLeft 0b10000#5 1 = 0b00001#5 ∧ rotateLeft 0b00001#5 2 = 0b00100#5
    ∧ rotateLeft 0b10000#5 3 = 0b00100#5 ∧ rotateLeft 0b10000#5 6 = 0b00001#5

/-- R126: the S-box row is `2*n[3] + n[0]` and the column `2*n[2] + n[1]`. -/
def Obligations.SboxLookupRowAndColumn : Prop :=
  ∀ (n : Half) (table : SBox) (row column : Fin 4),
    row.val = 2 * (n.getLsbD 3).toNat + (n.getLsbD 0).toNat →
    column.val = 2 * (n.getLsbD 2).toNat + (n.getLsbD 1).toNat →
      sboxLookup n table = (table[row])[column]

/-- D00's key schedule example with every intermediate value, with the default TABLES (log entry 5); the trace
is the spec's own derivation (R147). -/
def Obligations.KeyScheduleWorkedExample : Prop :=
  permute (0b1010000010#10) defaultTables.p10 = 0b1000001100#10
    ∧ keyHalves defaultTables 0b1010000010#10 = (0b10000#5, 0b01100#5)
    ∧ rotateLeft 0b10000#5 1 = 0b00001#5 ∧ rotateLeft 0b01100#5 1 = 0b11000#5
    ∧ 0b00001#5 ++ 0b11000#5 = 0b0000111000#10
    ∧ compress defaultTables 0b00001#5 0b11000#5 = 0b10100100#8
    ∧ rotateLeft 0b00001#5 2 = 0b00100#5 ∧ rotateLeft 0b11000#5 2 = 0b00011#5
    ∧ 0b00100#5 ++ 0b00011#5 = 0b0010000011#10
    ∧ compress defaultTables 0b00100#5 0b00011#5 = 0b01000011#8
    ∧ keySchedule defaultTables 0b1010000010#10 = (0b10100100#8, 0b01000011#8)

/-- With the default TABLES (log entry 5) each subkey bit is the key bit that the spec's closed form, its own
derivation (R144), lists. -/
def Obligations.SubkeyBitsAreKeyBits : Prop :=
  ∀ key : Key,
    (∀ q (h : q < 8), bitAt (keySchedule defaultTables key).1 (q + 1)
      = bitAt key ([1, 7, 9, 4, 8, 3, 10, 6][q]'(by simpa using h)))
    ∧ ∀ q (h : q < 8), bitAt (keySchedule defaultTables key).2 (q + 1)
      = bitAt key ([8, 3, 6, 5, 10, 2, 9, 1][q]'(by simpa using h))

/-- The properties the spec derives in R145: KS is linear over XOR and takes all-zero and all-one keys to
all-zero and all-one subkeys, for any TABLES; with the default TABLES (log entry 5) it is injective, though
two keys can still encrypt one plaintext to one ciphertext. -/
def Obligations.KeyScheduleIsLinearAndInjective : Prop :=
  (∀ (t : Tables) (a b : Key),
      keySchedule t (a ^^^ b) = ((keySchedule t a).1 ^^^ (keySchedule t b).1,
        (keySchedule t a).2 ^^^ (keySchedule t b).2))
    ∧ (∀ t : Tables, keySchedule t 0 = (0, 0) ∧ keySchedule t 0x3FF = (0xFF, 0xFF))
    ∧ Function.Injective (keySchedule defaultTables)
    ∧ ∃ (p : Block) (a b : Key), a ≠ b ∧ encrypt defaultTables p a = encrypt defaultTables p b

/-- The four complete tables of F that the spec derives in R158, default TABLES (log entry 5), and that F
depends on its operands only through `permute(r, EP) XOR k`, any TABLES. -/
def Obligations.RoundFunctionTables : Prop :=
  (List.range 16).map (fun r => (roundF defaultTables (BitVec.ofNat 4 r) 0x00).toNat)
      = [8, 4, 11, 15, 6, 1, 5, 8, 11, 8, 12, 15, 3, 13, 0, 7]
    ∧ (List.range 16).map (fun r => (roundF defaultTables (BitVec.ofNat 4 r) 0xFF).toNat)
      = [7, 0, 13, 3, 15, 12, 8, 11, 8, 5, 1, 6, 15, 11, 4, 8]
    ∧ (List.range 16).map (fun r => (roundF defaultTables (BitVec.ofNat 4 r) 0xA4).toNat)
      = [3, 6, 8, 5, 4, 8, 15, 9, 13, 7, 3, 0, 8, 15, 11, 12]
    ∧ (List.range 16).map (fun r => (roundF defaultTables (BitVec.ofNat 4 r) 0x43).toNat)
      = [9, 10, 14, 13, 5, 11, 6, 1, 12, 0, 15, 11, 0, 7, 1, 12]
    ∧ ∀ (t : Tables) (r r' : Half) (k k' : Block),
        permute r t.ep ^^^ k = permute r' t.ep ^^^ k' → roundF t r k = roundF t r' k'

/-- The two worked encryptions that the spec derives in R173 and R174, default TABLES (log entry 5), the first
with its stages. The ciphertext D00 prints for the first (0x11) is set aside by spec/90 C1. -/
def Obligations.BlockCipherWorkedExamples : Prop :=
  cryptStages defaultTables 0xA5 0xA4 0x43
      = { initial := 0x74, round1 := 0x34, swapped := 0x43, round2 := 0x93, final := 0xCA }
    ∧ encrypt defaultTables 0xA5 0x282 = 0xCA ∧ decrypt defaultTables 0xCA 0x282 = 0xA5
    ∧ decrypt defaultTables 0x11 0x282 = 0xE4 ∧ encrypt defaultTables 0x97 0x282 = 0x38

/-- D00's round trip, which the spec derives in R175 from R161 to R168: decryption undoes encryption and
encryption undoes decryption, for any TABLES whose IPINV is the inverse of IP, whatever the S-boxes hold. -/
def Obligations.DecryptUndoesEncrypt : Prop :=
  ∀ t : Tables, t.ip.undoes t.ipinv = true → ∀ (b : Block) (key : Key),
    decrypt t (encrypt t b key) key = b ∧ encrypt t (decrypt t b key) key = b

/-- The spec's consequence R176 (a): for each key, encryption is a bijection of the blocks and decryption its
inverse. -/
def Obligations.EncryptIsABijection : Prop :=
  ∀ t : Tables, t.ip.undoes t.ipinv = true → ∀ key : Key,
    Function.Bijective (fun b => encrypt t b key)
      ∧ Function.Bijective (fun b => decrypt t b key)
      ∧ ∀ b c, encrypt t b key = c ↔ decrypt t c key = b

/-! ### The scanner -/

/-- R196, R197, R198, R199: one trial, field by field: a key that matches is appended, the report is made when
due, KCNT advances, the trial of key 1023 completes the scan, and nothing else changes (ERR, the engine and
the other cells among it). -/
def Obligations.TrialTestsOneKey : Prop :=
  ∀ s : State, s.sbusy = true → s.kcnt.toNat ≤ 1023 → s.mcount.toNat ≤ 1023 →
    ∃ t, scannerTurn s = .next t
      ∧ t.kcnt.toNat = s.kcnt.toNat + 1
      ∧ (encrypt s.cfg.tables s.spt (BitVec.ofNat 10 s.kcnt.toNat) = s.sct →
          t.mcount.toNat = s.mcount.toNat + 1
            ∧ matchCell t s.mcount.toNat = BitVec.ofNat 10 s.kcnt.toNat
            ∧ ∀ i ≠ s.mcount.toNat, matchRead t.matchMem i = matchRead s.matchMem i)
      ∧ (encrypt s.cfg.tables s.spt (BitVec.ofNat 10 s.kcnt.toNat) ≠ s.sct →
          t.mcount = s.mcount ∧ t.matchMem = s.matchMem)
      ∧ t.progress.toNat = (if s.kcnt.toNat = 1023 then 100
          else if s.kcnt.toNat % s.cfg.progInterval = 0 then s.kcnt.toNat * 100 / 1024
          else s.progress.toNat)
      ∧ t.ip = (if s.kcnt.toNat = 1023 then 0b11
          else if s.kcnt.toNat % s.cfg.progInterval = 0 then s.ip ||| 0b10 else s.ip)
      ∧ t.sdone = (s.sdone || s.kcnt.toNat == 1023)
      ∧ t.sbusy = (s.kcnt.toNat != 1023)
      ∧ t.sabort = s.sabort ∧ t.spt = s.spt ∧ t.sct = s.sct ∧ sameEngine s t
      ∧ t.err = s.err ∧ t.ie = s.ie ∧ t.cfg = s.cfg ∧ t.schedule = s.schedule
      ∧ t.response = s.response

/-- R198, R199, R200: with PROG_INTERVAL = 100, its default, the trials of these twelve keys report these
values, and no other trial writes PROGRESS or IP; every report by interval is the floor of R198 and below
100. -/
def Obligations.ProgressReportsOfAScan : Prop :=
  (∀ s t : State, s.sbusy = true → s.cfg.progInterval = defaultConfig.progInterval →
      scannerTurn s = .next t →
      (∀ r ∈ [(0, 0), (100, 9), (200, 19), (300, 29), (400, 39), (500, 48), (600, 58), (700, 68),
          (800, 78), (900, 87), (1000, 97), (1023, 100)],
        s.kcnt.toNat = r.1 → t.progress.toNat = r.2 ∧ t.ip.getLsbD 1 = true)
      ∧ (s.kcnt.toNat ∉ [0, 100, 200, 300, 400, 500, 600, 700, 800, 900, 1000, 1023] →
        t.progress = s.progress ∧ t.ip = s.ip))
    ∧ defaultConfig.progInterval = 100
    ∧ ∀ k < 1024, (percentAt k).toNat = k * 100 / 1024 ∧ (percentAt k).toNat ≤ 99

/-- What the spec derives in R201 and R91: under the invariant, every step but a reset, SRST or SEARCH keeps
PROGRESS, KCNT and MCOUNT from falling and leaves every visible MATCH entry as it is; PROGRESS is 100 exactly
when the scan is done. -/
def Obligations.ProgressNeverFalls : Prop :=
  ∀ s t : State, StateInv s → step s = .next t →
    (∀ e rest, s.schedule = e :: rest → keepsResults e = true) →
      s.progress.toNat ≤ t.progress.toNat ∧ s.kcnt.toNat ≤ t.kcnt.toNat
        ∧ s.mcount.toNat ≤ t.mcount.toNat
        ∧ (∀ i < s.mcount.toNat, matchCell t i = matchCell s i)
        ∧ (t.progress.toNat = 100 ↔ t.sdone = true)

/-- R37, R50 items 7 and 8: under the invariant every visible MATCH word holds a key that a trial wrote, the
keys rise strictly, and words at or above MCOUNT read 0; no host read shows a free value. -/
def Obligations.VisibleMatchesAreWrittenAndAscending : Prop :=
  ∀ s : State, StateInv s →
    (∀ i < s.mcount.toNat, ∃ k, matchRead s.matchMem i = some k
      ∧ memRead (BitVec.ofNat 13 (0x1000 + 4 * i)) s = (0x80000000 ||| k.setWidth 32, s))
    ∧ (∀ i j, i < j → j < s.mcount.toNat → (matchCell s i).toNat < (matchCell s j).toNat)
    ∧ ∀ i < 1024, s.mcount.toNat ≤ i →
        memRead (BitVec.ofNat 13 (0x1000 + 4 * i)) s = (0, s)

/-- D00's soundness and completeness, which the spec derives in R205: the trial that completes a scan leaves
in MATCH exactly `searchKeys(SPT, SCT)`: every listed key is a match and every match is listed. -/
def Obligations.CompletedScanIsSearchKeys : Prop :=
  ∀ s t : State, StateInv s → s.sbusy = true → scannerTurn s = .next t → t.sdone = true →
    matchList t = searchKeys s.cfg.tables s.spt s.sct
      ∧ (∀ key : Key, key ∈ matchList t ↔ encrypt s.cfg.tables s.spt key = s.sct)

/-- R281, R193, with the determinism the spec derives in R205 and R206: from any invariant state in which
SEARCH executes next, whatever events are scheduled after it, SEARCH again among them, so long as none ends
the scan (a reset, SRST or ABORT), and however they interleave with the trials, the scan is done within 1024
steps beyond the events, and MATCH then holds `searchKeys(SPT, SCT)`, a function of TABLES, SPT and SCT alone;
where no later SEARCH is scheduled it holds that for good. That a silent host leaves the turn to the scanner
is how the model reads the fairness of R281 (log entry 3). -/
def Obligations.EverySearchCompletes : Prop :=
  ∀ (s : State) (rest : List Event), StateInv s → s.err = 0 → s.sbusy = false →
    s.schedule = .write 0x0004 0x00000004 :: rest → (∀ e ∈ rest, endsNoScan e = true) →
      (∃ n ≤ rest.length + 1025, ∃ t, Sys2Proof.core.run n s = .next t ∧ t.sdone = true
        ∧ t.sbusy = false ∧ t.progress.toNat = 100 ∧ t.kcnt.toNat = 1024
        ∧ matchList t = searchKeys s.cfg.tables s.spt s.sct)
      ∧ ((∀ e ∈ rest, leavesScan e = true) → ∀ n, rest.length + 1025 ≤ n →
        ∃ t, Sys2Proof.core.run n s = .next t ∧ t.sdone = true ∧ t.sbusy = false
          ∧ t.progress.toNat = 100 ∧ t.kcnt.toNat = 1024
          ∧ matchList t = searchKeys s.cfg.tables s.spt s.sct)

/-- R196, R28, R280: with a silent host a scan takes exactly 1024 trials, KCNT counting them. -/
def Obligations.AScanTakes1024Trials : Prop :=
  ∀ (s : State) (n : Nat), StateInv s → s.sbusy = true → s.kcnt = 0 → s.schedule = [] → n ≤ 1024 →
    ∃ t, Sys2Proof.core.run n s = .next t ∧ t.kcnt.toNat = n
      ∧ (t.sbusy = true ↔ n < 1024) ∧ (t.sdone = true ↔ n = 1024)

/-- R208: engine commands and writes to KEY and DIN touch no scanner state and depend on none; a trial touches
no engine state and depends on none. -/
def Obligations.EngineAndScannerAreIndependent : Prop :=
  (∀ (s t : State) (i : Instr), i = .keygen ∨ i = .enc ∨ i = .dec → exec i s = .next t →
      sameScanner s t)
    ∧ (∀ (s t : State) (v : Word), memWrite 0x0010 v s = .next t ∨ memWrite 0x0014 v s = .next t →
      sameScanner s t)
    ∧ (∀ s t : State, scannerTurn s = .next t → sameEngine s t)
    ∧ (∀ s u t : State, sameScanner s u → s.cfg = u.cfg → scannerTurn s = .next t →
      ∃ w, scannerTurn u = .next w ∧ sameScanner t w)
    ∧ (∀ (s u t : State) (off : Offset) (v : Word), off = 0x0010 ∨ off = 0x0014 → sameEngine s u →
      memWrite off v s = .next t → ∃ w, memWrite off v u = .next w ∧ sameEngine t w)
    ∧ ∀ (s u t : State) (i : Instr), i = .keygen ∨ i = .enc ∨ i = .dec → sameEngine s u →
      s.cfg = u.cfg → s.err = 0 → u.err = 0 → exec i s = .next t →
      ∃ w, exec i u = .next w ∧ sameEngine t w

/-! ### The machine as a whole -/

/-- R51, R260: after reset, and after SRST in any state, every bit of state is 0, a host reads 0 everywhere
but at ID, and `irq` is 0. -/
def Obligations.ResetReadsAsZero : Prop :=
  ∀ s t : State, (t = State.reset ∨ exec .srst s = .next t ∨ runEvent .reset s = .next t) →
    t = { key := 0, din := 0, dout := 0, k1 := 0, k2 := 0, spt := 0, sct := 0, kcnt := 0
          mcount := 0, progress := 0, sbusy := false, sdone := false, sabort := false
          kvalid := false, lastop := 0, err := 0, ie := 0, ip := 0, matchMem := []
          cfg := t.cfg, schedule := t.schedule, response := t.response }
      ∧ irq t = false ∧ (memRead 0x0000 t).1 = 0x53444553
      ∧ ∀ off : Offset, off ≠ 0x0000 → (memRead off t).1 = 0

/-- R49, R262: no step changes the configuration. -/
def Obligations.ConfigurationNeverChanges : Prop :=
  ∀ s t : State, step s = .next t → t.cfg = s.cfg

/-- R50, R48, R8: the state after reset has the invariant, with the history of item 7 too: SPT and SCT have not
been written. -/
def Obligations.ResetHasTheInvariant : Prop := StateInv State.reset ∧ PairInv false State.reset

/-- R50: every step keeps the invariant, from every state that has it. Item 7 in full, with the history it
speaks of ("since the most recent SEARCH"), is `EveryStepKeepsThePairInvariant`. -/
def Obligations.EveryStepKeepsTheInvariant : Prop :=
  ∀ s t : State, StateInv s → step s = .next t → StateInv t

/-- R50 item 7 in full: every step keeps the invariant that knows whether SPT or SCT have been written since
the most recent SEARCH executed, so that while they have not been, the result is that of (SPT, SCT) in a scan
that runs, is completed, or was aborted. -/
def Obligations.EveryStepKeepsThePairInvariant : Prop :=
  ∀ (written : Bool) (s t : State), PairInv written s → step s = .next t →
    PairInv (pairWritten written s) t

/-- R50 item 7, R204, R269: from a state whose results belong to (SPT, SCT), along any run whose events write
neither register, whatever scans they start, abort or wipe, MATCH always holds the matches of (SPT, SCT) among
the keys tested so far, and all of them once a scan is done. -/
def Obligations.UnwrittenPairKeepsItsResults : Prop :=
  ∀ (s t : State) (n : Nat), PairInv false s → (∀ e ∈ s.schedule, writesPair e = false) →
    Sys2Proof.core.run n s = .next t →
      matchList t = matchesBelow t.cfg.tables t.spt t.sct t.kcnt.toNat
        ∧ (t.sdone = true → matchList t = searchKeys t.cfg.tables t.spt t.sct)

/-- R92, R132, R15: from every state with the invariant the machine takes a step: it neither faults nor
refuses. -/
def Obligations.InvariantStatesNeverStop : Prop := ∀ s : State, StateInv s → Runs s

/-- The model's choice (log entry 8), where R50 and R92 rule the case out: a step faults only in the scanner's
turn, in a trial whose KCNT or MCOUNT is out of range. -/
def Obligations.OnlyOutOfRangeTrialsFault : Prop :=
  ∀ (s : State) (f : Fault), step s = .fault f →
    scannersTurn s ∧ s.sbusy = true ∧ (1024 ≤ s.kcnt.toNat ∨ 1024 ≤ s.mcount.toNat)

/-! ### Host sequences and the text codec -/

/-- R108, R265, with R77 and R86: the host programs of `generateSubkeys`, `encryptBlock` and `decryptBlock`,
run from any state with ERR = 0, pass their status check and answer the function of their operands, wherever
scanner steps fall between their accesses. -/
def Obligations.HostSequencesReturnTheFunctions : Prop :=
  ∀ (s : State) (turns : Nat → Nat) (b : Block) (key : Key), s.err = 0 → turnsSafe turns s →
    (∃ t, runProgram turns (generateSubkeys key) s
      = .next (t, .ok (keySchedule s.cfg.tables key)))
    ∧ (∃ t, runProgram turns (encryptBlock b key) s = .next (t, .ok (encrypt s.cfg.tables b key)))
    ∧ ∃ t, runProgram turns (decryptBlock b key) s = .next (t, .ok (decrypt s.cfg.tables b key))

/-- R108 (its line "fails"), R265, R238: a call made while ERR is not 0 fails its check: it answers the error
that ERR stands for and no result, and acknowledges every error, wherever scanner steps fall and however the
search would wait. The search also meets the BUSY that its writes to SPT and SCT raise while a scan runs. ERR
with WIDTH stands for D00's WidthMismatch (R231); that any other ERR is reported as its raw value, and that
WIDTH goes before other bits, is the model's choice (log entry 17), since the spec names no error there
(R233). -/
def Obligations.FailedCallsReportTheError : Prop :=
  ∀ (s : State) (turns : Nat → Nat) (wait : Wait) (polls : Nat) (b c : Block) (key : Key), s.err ≠ 0 →
    turnsSafe turns s →
      (∃ t, runProgram turns (generateSubkeys key) s = .next (t, .error (callError s.err)) ∧ t.err = 0)
      ∧ (∃ t, runProgram turns (encryptBlock b key) s = .next (t, .error (callError s.err))
        ∧ t.err = 0)
      ∧ (∃ t, runProgram turns (decryptBlock b key) s = .next (t, .error (callError s.err))
        ∧ t.err = 0)
      ∧ (∃ t e, runProgram turns (bruteForce wait polls b c) s = .next (t, .error (callError e))
        ∧ t.err = 0 ∧ (e = s.err ∨ (s.sbusy = true ∧ e = s.err ||| 0b0100)))
      ∧ (s.err.getLsbD 0 = true → callError s.err = .widthMismatch)
      ∧ (s.err.getLsbD 0 = false → callError s.err = .hardware s.err)

/-- R231, R210, R265: a call whose operand word is too wide for its register, in a state with ERR = 0, answers
D00's WidthMismatch: the block refuses the write, the command is dropped, no result is written and no search
begins, and the error is acknowledged, wherever scanner steps fall. -/
def Obligations.WideOperandsReportWidthMismatch : Prop :=
  ∀ (s : State) (turns : Nat → Nat) (wait : Wait) (polls : Nat) (x k p c : Word), s.err = 0 →
    turnsSafe turns s →
      (2 ^ 10 ≤ k.toNat → ∃ t, runProgram turns (subkeysCall k) s = .next (t, .error .widthMismatch)
        ∧ t.err = 0 ∧ t.k1 = s.k1 ∧ t.k2 = s.k2)
      ∧ (2 ^ 10 ≤ k.toNat ∨ 2 ^ 8 ≤ x.toNat → ∀ (i : Instr) (op : BitVec 2), i = .enc ∨ i = .dec →
        ∃ t, runProgram turns (blockCall i op x k) s = .next (t, .error .widthMismatch)
          ∧ t.err = 0 ∧ t.dout = s.dout)
      ∧ (s.sbusy = false → 2 ^ 8 ≤ p.toNat ∨ 2 ^ 8 ≤ c.toNat →
        ∃ t, runProgram turns (searchCall wait polls p c) s = .next (t, .error .widthMismatch)
          ∧ t.err = 0 ∧ t.sbusy = false ∧ matchList t = matchList s)

/-- R108, R265, R204, R205, R209: the host program of `bruteForce`, run from any invariant state with ERR = 0
and no scan running, passes its check; when its loop sees the scan done it answers exactly
`searchKeys(p, c)`, has called `onProgress` with values that never fall and end in 100, and has cleared IP;
and it does see the scan done within 1024 turns of the loop wherever a scanner step falls before each
access, if it polls, or if it waits for `irq` with IE.DONE or IE.PROG set. -/
def Obligations.BruteForceReturnsSearchKeys : Prop :=
  ∀ (s : State) (turns : Nat → Nat) (wait : Wait) (polls : Nat) (p c : Block), StateInv s → s.err = 0 →
    s.sbusy = false →
      ∃ t answer, runProgram turns (bruteForce wait polls p c) s = .next (t, .ok answer)
        ∧ (∀ reports keys, answer = .found reports keys →
          keys = searchKeys s.cfg.tables p c ∧ reports.getLast? = some 100
            ∧ reports.Pairwise (fun a b => a.toNat ≤ b.toNat) ∧ t.sdone = true ∧ t.ip = 0)
        ∧ ((∀ n, 1 ≤ turns n) → 1024 ≤ polls →
          (wait = .interrupt → s.ie.getLsbD 0 = true ∨ s.ie.getLsbD 1 = true) →
            ∃ reports keys, answer = .found reports keys)

/-- The spec's consequence R176 (b): with no error raised, decrypting through the registers what was encrypted
through them gives the plaintext back, wherever scanner steps fall. -/
def Obligations.RegistersRoundTrip : Prop :=
  ∀ (s : State) (turns : Nat → Nat) (p : Block) (key : Key), s.err = 0 → turnsSafe turns s →
    s.cfg.tables.ip.undoes s.cfg.tables.ipinv = true →
      ∃ t, runProgram turns
          (wrThen .key (key.setWidth 32) <| wrThen .din (p.setWidth 32) <| cmdThen .enc <|
            rdThen .dout fun c => wrThen .din c <| cmdThen .dec <| rdThen .dout fun d =>
              .done (c, d)) s
        = .next (t, (encrypt s.cfg.tables p key).setWidth 32, p.setWidth 32)

/-- R231, with what the spec derives in R177 and R267: after a write to DIN of a value that does not fit, ENC
is dropped: DOUT reads the older result, STATUS.ERRANY reads 1 and nothing was truncated, wherever scanner
steps fall. -/
def Obligations.WideOperandLocksOutEnc : Prop :=
  ∀ (s : State) (turns : Nat → Nat) (v : Word), 2 ^ 8 ≤ v.toNat → turnsSafe turns s →
    ∃ t status, runProgram turns
        (wrThen .din v <| cmdThen .enc <| rdThen .status fun st => rdThen .dout fun d =>
          .done (st, d)) s
        = .next (t, status, s.dout.setWidth 32)
      ∧ errAnyBit status = true ∧ t.din = s.din ∧ t.err = s.err ||| 0b0001

/-- R183, R184, with R77 and R86: the host loop of the text codec, run with ERR = 0, answers the function of
every block, in order, and a text through it answers `encryptText` and `decryptText`; with ERR not 0 the
commands are dropped (R238) and the result is void; wherever scanner steps fall. That the void loop then
answers the error that ERR stands for and acknowledges it is no part of R183: it is the failing step of R265,
which the model gives the codec too (log entries 11 and 17). -/
def Obligations.CodecLoopReturnsEveryBlock : Prop :=
  ∀ (s : State) (turns : Nat → Nat) (key : Key) (bs : List Block) (text : List Char), turnsSafe turns s →
    (s.err = 0 →
      (∃ t, runProgram turns (codec .enc key bs) s
        = .next (t, .ok (bs.map fun b => encrypt s.cfg.tables b key)))
      ∧ (∃ t, runProgram turns (codec .dec key bs) s
        = .next (t, .ok (bs.map fun b => decrypt s.cfg.tables b key)))
      ∧ (∃ t, runProgram turns (textCall .enc text key) s
        = .next (t, encryptText s.cfg.tables text key))
      ∧ ∃ t, runProgram turns (textCall .dec text key) s
        = .next (t, decryptText s.cfg.tables text key))
    ∧ (s.err ≠ 0 → ∀ i : Instr, i = .enc ∨ i = .dec →
      ∃ t, runProgram turns (codec i key bs) s = .next (t, .error (callError s.err)) ∧ t.err = 0)

/-- D00's text round trip, which the spec derives in R185: for every string of characters with code points up
to 255, decrypting the encrypted text gives the text back. -/
def Obligations.TextRoundTrip : Prop :=
  ∀ (t : Tables) (text : List Char) (key : Key), t.ip.undoes t.ipinv = true →
    (∀ c ∈ text, c.toNat ≤ 255) →
      ∃ cipher, encryptText t text key = .ok cipher ∧ cipher.length = text.length
        ∧ decryptText t cipher key = .ok text

/-- R184, R231, R232: the driver rejects a whole string with a character above 255, a bit string of the wrong
length, and one with a character other than 0 and 1, and such a call makes no access. -/
def Obligations.DriverRejectsBadStrings : Prop :=
  (∀ (t : Tables) (text : List Char) (key : Key), (∃ c ∈ text, 255 < c.toNat) →
      encryptText t text key = .error .unsupportedCharacter
        ∧ decryptText t text key = .error .unsupportedCharacter
        ∧ textCall .enc text key = .done (.error .unsupportedCharacter)
        ∧ textCall .dec text key = .done (.error .unsupportedCharacter))
    ∧ (∀ (w : Nat) (text : List Char), text.length ≠ w → parseBits w text = .error .widthMismatch)
    ∧ (∀ (w : Nat) (text : List Char), text.length = w → (∃ c ∈ text, c ≠ '0' ∧ c ≠ '1') →
      parseBits w text = .error .invalidSymbol)
    ∧ parseBits 10 ['1', '0', '1', '0', '0', '0', '0', '0', '1', '0'] = .ok 0x282#10
    ∧ (∀ (k : List Char) (e : DriverError), parseBits 10 k = .error e →
      callGenerateSubkeys k = .done (.error e)
        ∧ ∀ (b : List Char) (x : Block), parseBits 8 b = .ok x →
          callEncryptBlock b k = .done (.error e) ∧ callDecryptBlock b k = .done (.error e))
    ∧ (∀ (b k : List Char) (e : DriverError), parseBits 8 b = .error e →
      callEncryptBlock b k = .done (.error e) ∧ callDecryptBlock b k = .done (.error e)
        ∧ ∀ (wait : Wait) (polls : Nat) (c : List Char) (x : Block),
          callBruteForce wait polls b c = .done (.error e)
            ∧ (parseBits 8 c = .ok x → callBruteForce wait polls c b = .done (.error e)))

end
end

