-- ==== Sys2Proof/Laws/State.lean ====
section
/-! SUPPORT. For each update of the state, one lemma per field: what the field holds after it. -/

namespace Sys2Proof.Machine

/-! ### raiseError -/

@[simp] theorem raiseError_key (e : ErrorCause) (s : State) : (raiseError e s).key = s.key := rfl
@[simp] theorem raiseError_din (e : ErrorCause) (s : State) : (raiseError e s).din = s.din := rfl
@[simp] theorem raiseError_dout (e : ErrorCause) (s : State) : (raiseError e s).dout = s.dout := rfl
@[simp] theorem raiseError_k1 (e : ErrorCause) (s : State) : (raiseError e s).k1 = s.k1 := rfl
@[simp] theorem raiseError_k2 (e : ErrorCause) (s : State) : (raiseError e s).k2 = s.k2 := rfl
@[simp] theorem raiseError_spt (e : ErrorCause) (s : State) : (raiseError e s).spt = s.spt := rfl
@[simp] theorem raiseError_sct (e : ErrorCause) (s : State) : (raiseError e s).sct = s.sct := rfl
@[simp] theorem raiseError_kcnt (e : ErrorCause) (s : State) : (raiseError e s).kcnt = s.kcnt := rfl
@[simp] theorem raiseError_mcount (e : ErrorCause) (s : State) : (raiseError e s).mcount = s.mcount := rfl
@[simp] theorem raiseError_progress (e : ErrorCause) (s : State) : (raiseError e s).progress = s.progress := rfl
@[simp] theorem raiseError_sbusy (e : ErrorCause) (s : State) : (raiseError e s).sbusy = s.sbusy := rfl
@[simp] theorem raiseError_sdone (e : ErrorCause) (s : State) : (raiseError e s).sdone = s.sdone := rfl
@[simp] theorem raiseError_sabort (e : ErrorCause) (s : State) : (raiseError e s).sabort = s.sabort := rfl
@[simp] theorem raiseError_kvalid (e : ErrorCause) (s : State) : (raiseError e s).kvalid = s.kvalid := rfl
@[simp] theorem raiseError_lastop (e : ErrorCause) (s : State) : (raiseError e s).lastop = s.lastop := rfl
@[simp] theorem raiseError_err (e : ErrorCause) (s : State) : (raiseError e s).err = s.err ||| errorBit e := rfl
@[simp] theorem raiseError_ie (e : ErrorCause) (s : State) : (raiseError e s).ie = s.ie := rfl
@[simp] theorem raiseError_ip (e : ErrorCause) (s : State) : (raiseError e s).ip = s.ip := rfl
@[simp] theorem raiseError_matchMem (e : ErrorCause) (s : State) : (raiseError e s).matchMem = s.matchMem := rfl
@[simp] theorem raiseError_cfg (e : ErrorCause) (s : State) : (raiseError e s).cfg = s.cfg := rfl
@[simp] theorem raiseError_schedule (e : ErrorCause) (s : State) : (raiseError e s).schedule = s.schedule := rfl
@[simp] theorem raiseError_response (e : ErrorCause) (s : State) : (raiseError e s).response = s.response := rfl

/-! ### acknowledgeErrors -/

@[simp] theorem acknowledgeErrors_key (v : Word) (s : State) : (acknowledgeErrors v s).key = s.key := rfl
@[simp] theorem acknowledgeErrors_din (v : Word) (s : State) : (acknowledgeErrors v s).din = s.din := rfl
@[simp] theorem acknowledgeErrors_dout (v : Word) (s : State) : (acknowledgeErrors v s).dout = s.dout := rfl
@[simp] theorem acknowledgeErrors_k1 (v : Word) (s : State) : (acknowledgeErrors v s).k1 = s.k1 := rfl
@[simp] theorem acknowledgeErrors_k2 (v : Word) (s : State) : (acknowledgeErrors v s).k2 = s.k2 := rfl
@[simp] theorem acknowledgeErrors_spt (v : Word) (s : State) : (acknowledgeErrors v s).spt = s.spt := rfl
@[simp] theorem acknowledgeErrors_sct (v : Word) (s : State) : (acknowledgeErrors v s).sct = s.sct := rfl
@[simp] theorem acknowledgeErrors_kcnt (v : Word) (s : State) : (acknowledgeErrors v s).kcnt = s.kcnt := rfl
@[simp] theorem acknowledgeErrors_mcount (v : Word) (s : State) : (acknowledgeErrors v s).mcount = s.mcount := rfl
@[simp] theorem acknowledgeErrors_progress (v : Word) (s : State) : (acknowledgeErrors v s).progress = s.progress := rfl
@[simp] theorem acknowledgeErrors_sbusy (v : Word) (s : State) : (acknowledgeErrors v s).sbusy = s.sbusy := rfl
@[simp] theorem acknowledgeErrors_sdone (v : Word) (s : State) : (acknowledgeErrors v s).sdone = s.sdone := rfl
@[simp] theorem acknowledgeErrors_sabort (v : Word) (s : State) : (acknowledgeErrors v s).sabort = s.sabort := rfl
@[simp] theorem acknowledgeErrors_kvalid (v : Word) (s : State) : (acknowledgeErrors v s).kvalid = s.kvalid := rfl
@[simp] theorem acknowledgeErrors_lastop (v : Word) (s : State) : (acknowledgeErrors v s).lastop = s.lastop := rfl
@[simp] theorem acknowledgeErrors_err (v : Word) (s : State) : (acknowledgeErrors v s).err = clearOnes s.err v := rfl
@[simp] theorem acknowledgeErrors_ie (v : Word) (s : State) : (acknowledgeErrors v s).ie = s.ie := rfl
@[simp] theorem acknowledgeErrors_ip (v : Word) (s : State) : (acknowledgeErrors v s).ip = s.ip := rfl
@[simp] theorem acknowledgeErrors_matchMem (v : Word) (s : State) : (acknowledgeErrors v s).matchMem = s.matchMem := rfl
@[simp] theorem acknowledgeErrors_cfg (v : Word) (s : State) : (acknowledgeErrors v s).cfg = s.cfg := rfl
@[simp] theorem acknowledgeErrors_schedule (v : Word) (s : State) : (acknowledgeErrors v s).schedule = s.schedule := rfl
@[simp] theorem acknowledgeErrors_response (v : Word) (s : State) : (acknowledgeErrors v s).response = s.response := rfl

/-! ### deriveSubkeys -/

@[simp] theorem deriveSubkeys_key (s : State) : (deriveSubkeys s).key = s.key := rfl
@[simp] theorem deriveSubkeys_din (s : State) : (deriveSubkeys s).din = s.din := rfl
@[simp] theorem deriveSubkeys_dout (s : State) : (deriveSubkeys s).dout = s.dout := rfl
@[simp] theorem deriveSubkeys_k1 (s : State) : (deriveSubkeys s).k1 = (keySchedule s.cfg.tables s.key).1 := rfl
@[simp] theorem deriveSubkeys_k2 (s : State) : (deriveSubkeys s).k2 = (keySchedule s.cfg.tables s.key).2 := rfl
@[simp] theorem deriveSubkeys_spt (s : State) : (deriveSubkeys s).spt = s.spt := rfl
@[simp] theorem deriveSubkeys_sct (s : State) : (deriveSubkeys s).sct = s.sct := rfl
@[simp] theorem deriveSubkeys_kcnt (s : State) : (deriveSubkeys s).kcnt = s.kcnt := rfl
@[simp] theorem deriveSubkeys_mcount (s : State) : (deriveSubkeys s).mcount = s.mcount := rfl
@[simp] theorem deriveSubkeys_progress (s : State) : (deriveSubkeys s).progress = s.progress := rfl
@[simp] theorem deriveSubkeys_sbusy (s : State) : (deriveSubkeys s).sbusy = s.sbusy := rfl
@[simp] theorem deriveSubkeys_sdone (s : State) : (deriveSubkeys s).sdone = s.sdone := rfl
@[simp] theorem deriveSubkeys_sabort (s : State) : (deriveSubkeys s).sabort = s.sabort := rfl
@[simp] theorem deriveSubkeys_kvalid (s : State) : (deriveSubkeys s).kvalid = true := rfl
@[simp] theorem deriveSubkeys_lastop (s : State) : (deriveSubkeys s).lastop = s.lastop := rfl
@[simp] theorem deriveSubkeys_err (s : State) : (deriveSubkeys s).err = s.err := rfl
@[simp] theorem deriveSubkeys_ie (s : State) : (deriveSubkeys s).ie = s.ie := rfl
@[simp] theorem deriveSubkeys_ip (s : State) : (deriveSubkeys s).ip = s.ip := rfl
@[simp] theorem deriveSubkeys_matchMem (s : State) : (deriveSubkeys s).matchMem = s.matchMem := rfl
@[simp] theorem deriveSubkeys_cfg (s : State) : (deriveSubkeys s).cfg = s.cfg := rfl
@[simp] theorem deriveSubkeys_schedule (s : State) : (deriveSubkeys s).schedule = s.schedule := rfl
@[simp] theorem deriveSubkeys_response (s : State) : (deriveSubkeys s).response = s.response := rfl

/-! ### encEffect -/

@[simp] theorem encEffect_key (s : State) : (encEffect s).key = s.key := rfl
@[simp] theorem encEffect_din (s : State) : (encEffect s).din = s.din := rfl
@[simp] theorem encEffect_dout (s : State) : (encEffect s).dout = encrypt s.cfg.tables s.din s.key := rfl
@[simp] theorem encEffect_k1 (s : State) : (encEffect s).k1 = (keySchedule s.cfg.tables s.key).1 := rfl
@[simp] theorem encEffect_k2 (s : State) : (encEffect s).k2 = (keySchedule s.cfg.tables s.key).2 := rfl
@[simp] theorem encEffect_spt (s : State) : (encEffect s).spt = s.spt := rfl
@[simp] theorem encEffect_sct (s : State) : (encEffect s).sct = s.sct := rfl
@[simp] theorem encEffect_kcnt (s : State) : (encEffect s).kcnt = s.kcnt := rfl
@[simp] theorem encEffect_mcount (s : State) : (encEffect s).mcount = s.mcount := rfl
@[simp] theorem encEffect_progress (s : State) : (encEffect s).progress = s.progress := rfl
@[simp] theorem encEffect_sbusy (s : State) : (encEffect s).sbusy = s.sbusy := rfl
@[simp] theorem encEffect_sdone (s : State) : (encEffect s).sdone = s.sdone := rfl
@[simp] theorem encEffect_sabort (s : State) : (encEffect s).sabort = s.sabort := rfl
@[simp] theorem encEffect_kvalid (s : State) : (encEffect s).kvalid = true := rfl
@[simp] theorem encEffect_lastop (s : State) : (encEffect s).lastop = 1 := rfl
@[simp] theorem encEffect_err (s : State) : (encEffect s).err = s.err := rfl
@[simp] theorem encEffect_ie (s : State) : (encEffect s).ie = s.ie := rfl
@[simp] theorem encEffect_ip (s : State) : (encEffect s).ip = s.ip := rfl
@[simp] theorem encEffect_matchMem (s : State) : (encEffect s).matchMem = s.matchMem := rfl
@[simp] theorem encEffect_cfg (s : State) : (encEffect s).cfg = s.cfg := rfl
@[simp] theorem encEffect_schedule (s : State) : (encEffect s).schedule = s.schedule := rfl
@[simp] theorem encEffect_response (s : State) : (encEffect s).response = s.response := rfl

/-! ### decEffect -/

@[simp] theorem decEffect_key (s : State) : (decEffect s).key = s.key := rfl
@[simp] theorem decEffect_din (s : State) : (decEffect s).din = s.din := rfl
@[simp] theorem decEffect_dout (s : State) : (decEffect s).dout = decrypt s.cfg.tables s.din s.key := rfl
@[simp] theorem decEffect_k1 (s : State) : (decEffect s).k1 = (keySchedule s.cfg.tables s.key).1 := rfl
@[simp] theorem decEffect_k2 (s : State) : (decEffect s).k2 = (keySchedule s.cfg.tables s.key).2 := rfl
@[simp] theorem decEffect_spt (s : State) : (decEffect s).spt = s.spt := rfl
@[simp] theorem decEffect_sct (s : State) : (decEffect s).sct = s.sct := rfl
@[simp] theorem decEffect_kcnt (s : State) : (decEffect s).kcnt = s.kcnt := rfl
@[simp] theorem decEffect_mcount (s : State) : (decEffect s).mcount = s.mcount := rfl
@[simp] theorem decEffect_progress (s : State) : (decEffect s).progress = s.progress := rfl
@[simp] theorem decEffect_sbusy (s : State) : (decEffect s).sbusy = s.sbusy := rfl
@[simp] theorem decEffect_sdone (s : State) : (decEffect s).sdone = s.sdone := rfl
@[simp] theorem decEffect_sabort (s : State) : (decEffect s).sabort = s.sabort := rfl
@[simp] theorem decEffect_kvalid (s : State) : (decEffect s).kvalid = true := rfl
@[simp] theorem decEffect_lastop (s : State) : (decEffect s).lastop = 2 := rfl
@[simp] theorem decEffect_err (s : State) : (decEffect s).err = s.err := rfl
@[simp] theorem decEffect_ie (s : State) : (decEffect s).ie = s.ie := rfl
@[simp] theorem decEffect_ip (s : State) : (decEffect s).ip = s.ip := rfl
@[simp] theorem decEffect_matchMem (s : State) : (decEffect s).matchMem = s.matchMem := rfl
@[simp] theorem decEffect_cfg (s : State) : (decEffect s).cfg = s.cfg := rfl
@[simp] theorem decEffect_schedule (s : State) : (decEffect s).schedule = s.schedule := rfl
@[simp] theorem decEffect_response (s : State) : (decEffect s).response = s.response := rfl

/-! ### startScan -/

@[simp] theorem startScan_key (s : State) : (startScan s).key = s.key := rfl
@[simp] theorem startScan_din (s : State) : (startScan s).din = s.din := rfl
@[simp] theorem startScan_dout (s : State) : (startScan s).dout = s.dout := rfl
@[simp] theorem startScan_k1 (s : State) : (startScan s).k1 = s.k1 := rfl
@[simp] theorem startScan_k2 (s : State) : (startScan s).k2 = s.k2 := rfl
@[simp] theorem startScan_spt (s : State) : (startScan s).spt = s.spt := rfl
@[simp] theorem startScan_sct (s : State) : (startScan s).sct = s.sct := rfl
@[simp] theorem startScan_kcnt (s : State) : (startScan s).kcnt = 0 := rfl
@[simp] theorem startScan_mcount (s : State) : (startScan s).mcount = 0 := rfl
@[simp] theorem startScan_progress (s : State) : (startScan s).progress = 0 := rfl
@[simp] theorem startScan_sbusy (s : State) : (startScan s).sbusy = true := rfl
@[simp] theorem startScan_sdone (s : State) : (startScan s).sdone = false := rfl
@[simp] theorem startScan_sabort (s : State) : (startScan s).sabort = false := rfl
@[simp] theorem startScan_kvalid (s : State) : (startScan s).kvalid = s.kvalid := rfl
@[simp] theorem startScan_lastop (s : State) : (startScan s).lastop = s.lastop := rfl
@[simp] theorem startScan_err (s : State) : (startScan s).err = s.err := rfl
@[simp] theorem startScan_ie (s : State) : (startScan s).ie = s.ie := rfl
@[simp] theorem startScan_ip (s : State) : (startScan s).ip = s.ip := rfl
@[simp] theorem startScan_matchMem (s : State) : (startScan s).matchMem = s.matchMem := rfl
@[simp] theorem startScan_cfg (s : State) : (startScan s).cfg = s.cfg := rfl
@[simp] theorem startScan_schedule (s : State) : (startScan s).schedule = s.schedule := rfl
@[simp] theorem startScan_response (s : State) : (startScan s).response = s.response := rfl

/-! ### appendMatch -/

@[simp] theorem appendMatch_key (s : State) : (appendMatch s).key = s.key := rfl
@[simp] theorem appendMatch_din (s : State) : (appendMatch s).din = s.din := rfl
@[simp] theorem appendMatch_dout (s : State) : (appendMatch s).dout = s.dout := rfl
@[simp] theorem appendMatch_k1 (s : State) : (appendMatch s).k1 = s.k1 := rfl
@[simp] theorem appendMatch_k2 (s : State) : (appendMatch s).k2 = s.k2 := rfl
@[simp] theorem appendMatch_spt (s : State) : (appendMatch s).spt = s.spt := rfl
@[simp] theorem appendMatch_sct (s : State) : (appendMatch s).sct = s.sct := rfl
@[simp] theorem appendMatch_kcnt (s : State) : (appendMatch s).kcnt = s.kcnt := rfl
@[simp] theorem appendMatch_mcount (s : State) : (appendMatch s).mcount = s.mcount + 1 := rfl
@[simp] theorem appendMatch_progress (s : State) : (appendMatch s).progress = s.progress := rfl
@[simp] theorem appendMatch_sbusy (s : State) : (appendMatch s).sbusy = s.sbusy := rfl
@[simp] theorem appendMatch_sdone (s : State) : (appendMatch s).sdone = s.sdone := rfl
@[simp] theorem appendMatch_sabort (s : State) : (appendMatch s).sabort = s.sabort := rfl
@[simp] theorem appendMatch_kvalid (s : State) : (appendMatch s).kvalid = s.kvalid := rfl
@[simp] theorem appendMatch_lastop (s : State) : (appendMatch s).lastop = s.lastop := rfl
@[simp] theorem appendMatch_err (s : State) : (appendMatch s).err = s.err := rfl
@[simp] theorem appendMatch_ie (s : State) : (appendMatch s).ie = s.ie := rfl
@[simp] theorem appendMatch_ip (s : State) : (appendMatch s).ip = s.ip := rfl
@[simp] theorem appendMatch_matchMem (s : State) : (appendMatch s).matchMem = matchWrite s.matchMem s.mcount.toNat (trialKey s) := rfl
@[simp] theorem appendMatch_cfg (s : State) : (appendMatch s).cfg = s.cfg := rfl
@[simp] theorem appendMatch_schedule (s : State) : (appendMatch s).schedule = s.schedule := rfl
@[simp] theorem appendMatch_response (s : State) : (appendMatch s).response = s.response := rfl

/-! ### report -/

@[simp] theorem report_key (p : BitVec 7) (s : State) : (report p s).key = s.key := rfl
@[simp] theorem report_din (p : BitVec 7) (s : State) : (report p s).din = s.din := rfl
@[simp] theorem report_dout (p : BitVec 7) (s : State) : (report p s).dout = s.dout := rfl
@[simp] theorem report_k1 (p : BitVec 7) (s : State) : (report p s).k1 = s.k1 := rfl
@[simp] theorem report_k2 (p : BitVec 7) (s : State) : (report p s).k2 = s.k2 := rfl
@[simp] theorem report_spt (p : BitVec 7) (s : State) : (report p s).spt = s.spt := rfl
@[simp] theorem report_sct (p : BitVec 7) (s : State) : (report p s).sct = s.sct := rfl
@[simp] theorem report_kcnt (p : BitVec 7) (s : State) : (report p s).kcnt = s.kcnt := rfl
@[simp] theorem report_mcount (p : BitVec 7) (s : State) : (report p s).mcount = s.mcount := rfl
@[simp] theorem report_progress (p : BitVec 7) (s : State) : (report p s).progress = p := rfl
@[simp] theorem report_sbusy (p : BitVec 7) (s : State) : (report p s).sbusy = s.sbusy := rfl
@[simp] theorem report_sdone (p : BitVec 7) (s : State) : (report p s).sdone = s.sdone := rfl
@[simp] theorem report_sabort (p : BitVec 7) (s : State) : (report p s).sabort = s.sabort := rfl
@[simp] theorem report_kvalid (p : BitVec 7) (s : State) : (report p s).kvalid = s.kvalid := rfl
@[simp] theorem report_lastop (p : BitVec 7) (s : State) : (report p s).lastop = s.lastop := rfl
@[simp] theorem report_err (p : BitVec 7) (s : State) : (report p s).err = s.err := rfl
@[simp] theorem report_ie (p : BitVec 7) (s : State) : (report p s).ie = s.ie := rfl
@[simp] theorem report_ip (p : BitVec 7) (s : State) : (report p s).ip = s.ip ||| ipProg := rfl
@[simp] theorem report_matchMem (p : BitVec 7) (s : State) : (report p s).matchMem = s.matchMem := rfl
@[simp] theorem report_cfg (p : BitVec 7) (s : State) : (report p s).cfg = s.cfg := rfl
@[simp] theorem report_schedule (p : BitVec 7) (s : State) : (report p s).schedule = s.schedule := rfl
@[simp] theorem report_response (p : BitVec 7) (s : State) : (report p s).response = s.response := rfl

/-! ### completeScan -/

@[simp] theorem completeScan_key (s : State) : (completeScan s).key = s.key := rfl
@[simp] theorem completeScan_din (s : State) : (completeScan s).din = s.din := rfl
@[simp] theorem completeScan_dout (s : State) : (completeScan s).dout = s.dout := rfl
@[simp] theorem completeScan_k1 (s : State) : (completeScan s).k1 = s.k1 := rfl
@[simp] theorem completeScan_k2 (s : State) : (completeScan s).k2 = s.k2 := rfl
@[simp] theorem completeScan_spt (s : State) : (completeScan s).spt = s.spt := rfl
@[simp] theorem completeScan_sct (s : State) : (completeScan s).sct = s.sct := rfl
@[simp] theorem completeScan_kcnt (s : State) : (completeScan s).kcnt = s.kcnt := rfl
@[simp] theorem completeScan_mcount (s : State) : (completeScan s).mcount = s.mcount := rfl
@[simp] theorem completeScan_progress (s : State) : (completeScan s).progress = 100 := rfl
@[simp] theorem completeScan_sbusy (s : State) : (completeScan s).sbusy = false := rfl
@[simp] theorem completeScan_sdone (s : State) : (completeScan s).sdone = true := rfl
@[simp] theorem completeScan_sabort (s : State) : (completeScan s).sabort = s.sabort := rfl
@[simp] theorem completeScan_kvalid (s : State) : (completeScan s).kvalid = s.kvalid := rfl
@[simp] theorem completeScan_lastop (s : State) : (completeScan s).lastop = s.lastop := rfl
@[simp] theorem completeScan_err (s : State) : (completeScan s).err = s.err := rfl
@[simp] theorem completeScan_ie (s : State) : (completeScan s).ie = s.ie := rfl
@[simp] theorem completeScan_ip (s : State) : (completeScan s).ip = s.ip ||| ipProg ||| ipDone := rfl
@[simp] theorem completeScan_matchMem (s : State) : (completeScan s).matchMem = s.matchMem := rfl
@[simp] theorem completeScan_cfg (s : State) : (completeScan s).cfg = s.cfg := rfl
@[simp] theorem completeScan_schedule (s : State) : (completeScan s).schedule = s.schedule := rfl
@[simp] theorem completeScan_response (s : State) : (completeScan s).response = s.response := rfl

/-! ### resetBlock -/

@[simp] theorem resetBlock_key (s : State) : (resetBlock s).key = 0 := rfl
@[simp] theorem resetBlock_din (s : State) : (resetBlock s).din = 0 := rfl
@[simp] theorem resetBlock_dout (s : State) : (resetBlock s).dout = 0 := rfl
@[simp] theorem resetBlock_k1 (s : State) : (resetBlock s).k1 = 0 := rfl
@[simp] theorem resetBlock_k2 (s : State) : (resetBlock s).k2 = 0 := rfl
@[simp] theorem resetBlock_spt (s : State) : (resetBlock s).spt = 0 := rfl
@[simp] theorem resetBlock_sct (s : State) : (resetBlock s).sct = 0 := rfl
@[simp] theorem resetBlock_kcnt (s : State) : (resetBlock s).kcnt = 0 := rfl
@[simp] theorem resetBlock_mcount (s : State) : (resetBlock s).mcount = 0 := rfl
@[simp] theorem resetBlock_progress (s : State) : (resetBlock s).progress = 0 := rfl
@[simp] theorem resetBlock_sbusy (s : State) : (resetBlock s).sbusy = false := rfl
@[simp] theorem resetBlock_sdone (s : State) : (resetBlock s).sdone = false := rfl
@[simp] theorem resetBlock_sabort (s : State) : (resetBlock s).sabort = false := rfl
@[simp] theorem resetBlock_kvalid (s : State) : (resetBlock s).kvalid = false := rfl
@[simp] theorem resetBlock_lastop (s : State) : (resetBlock s).lastop = 0 := rfl
@[simp] theorem resetBlock_err (s : State) : (resetBlock s).err = 0 := rfl
@[simp] theorem resetBlock_ie (s : State) : (resetBlock s).ie = 0 := rfl
@[simp] theorem resetBlock_ip (s : State) : (resetBlock s).ip = 0 := rfl
@[simp] theorem resetBlock_matchMem (s : State) : (resetBlock s).matchMem = [] := rfl
@[simp] theorem resetBlock_cfg (s : State) : (resetBlock s).cfg = s.cfg := rfl
@[simp] theorem resetBlock_schedule (s : State) : (resetBlock s).schedule = s.schedule := rfl
@[simp] theorem resetBlock_response (s : State) : (resetBlock s).response = s.response := rfl

/-! ### advanceScan, whose fields depend on the key tried -/

@[simp] theorem advanceScan_key (s : State) : (advanceScan s).key = s.key := by
  unfold advanceScan; dsimp only; split <;> split <;> rfl
@[simp] theorem advanceScan_din (s : State) : (advanceScan s).din = s.din := by
  unfold advanceScan; dsimp only; split <;> split <;> rfl
@[simp] theorem advanceScan_dout (s : State) : (advanceScan s).dout = s.dout := by
  unfold advanceScan; dsimp only; split <;> split <;> rfl
@[simp] theorem advanceScan_k1 (s : State) : (advanceScan s).k1 = s.k1 := by
  unfold advanceScan; dsimp only; split <;> split <;> rfl
@[simp] theorem advanceScan_k2 (s : State) : (advanceScan s).k2 = s.k2 := by
  unfold advanceScan; dsimp only; split <;> split <;> rfl
@[simp] theorem advanceScan_spt (s : State) : (advanceScan s).spt = s.spt := by
  unfold advanceScan; dsimp only; split <;> split <;> rfl
@[simp] theorem advanceScan_sct (s : State) : (advanceScan s).sct = s.sct := by
  unfold advanceScan; dsimp only; split <;> split <;> rfl
@[simp] theorem advanceScan_mcount (s : State) : (advanceScan s).mcount = s.mcount := by
  unfold advanceScan; dsimp only; split <;> split <;> rfl
@[simp] theorem advanceScan_sabort (s : State) : (advanceScan s).sabort = s.sabort := by
  unfold advanceScan; dsimp only; split <;> split <;> rfl
@[simp] theorem advanceScan_kvalid (s : State) : (advanceScan s).kvalid = s.kvalid := by
  unfold advanceScan; dsimp only; split <;> split <;> rfl
@[simp] theorem advanceScan_lastop (s : State) : (advanceScan s).lastop = s.lastop := by
  unfold advanceScan; dsimp only; split <;> split <;> rfl
@[simp] theorem advanceScan_err (s : State) : (advanceScan s).err = s.err := by
  unfold advanceScan; dsimp only; split <;> split <;> rfl
@[simp] theorem advanceScan_ie (s : State) : (advanceScan s).ie = s.ie := by
  unfold advanceScan; dsimp only; split <;> split <;> rfl
@[simp] theorem advanceScan_matchMem (s : State) : (advanceScan s).matchMem = s.matchMem := by
  unfold advanceScan; dsimp only; split <;> split <;> rfl
@[simp] theorem advanceScan_cfg (s : State) : (advanceScan s).cfg = s.cfg := by
  unfold advanceScan; dsimp only; split <;> split <;> rfl
@[simp] theorem advanceScan_schedule (s : State) : (advanceScan s).schedule = s.schedule := by
  unfold advanceScan; dsimp only; split <;> split <;> rfl
@[simp] theorem advanceScan_response (s : State) : (advanceScan s).response = s.response := by
  unfold advanceScan; dsimp only; split <;> split <;> rfl
@[simp] theorem advanceScan_kcnt (s : State) : (advanceScan s).kcnt = s.kcnt + 1 := by
  unfold advanceScan; dsimp only; split <;> split <;> rfl
@[simp] theorem advanceScan_sbusy (s : State) :
    (advanceScan s).sbusy = if s.kcnt.toNat = 1023 then false else s.sbusy := by
  unfold advanceScan; dsimp only; split <;> split <;> rfl
@[simp] theorem advanceScan_sdone (s : State) :
    (advanceScan s).sdone = if s.kcnt.toNat = 1023 then true else s.sdone := by
  unfold advanceScan; dsimp only; split <;> split <;> rfl
@[simp] theorem advanceScan_progress (s : State) :
    (advanceScan s).progress =
      if s.kcnt.toNat = 1023 then 100
      else if reportDue s.cfg s.kcnt.toNat then percentAt s.kcnt.toNat else s.progress := by
  unfold advanceScan; dsimp only; split <;> split <;> rfl
theorem advanceScan_ip (s : State) :
    (advanceScan s).ip =
      if s.kcnt.toNat = 1023 then s.ip ||| ipProg ||| ipDone
      else if reportDue s.cfg s.kcnt.toNat then s.ip ||| ipProg else s.ip := by
  unfold advanceScan; dsimp only
  split <;> split <;> simp [BitVec.or_assoc]

end Sys2Proof.Machine
end

