-- ==== Sys2Proof/Laws/Memory.lean ====
section
/-! SUPPORT. The result memory: read after write, a write leaves every other cell alone, every operation
keeps the canonical form, and two memories in canonical form that read the same are the same list. -/

namespace Sys2Proof.Machine

@[simp] theorem matchRead_nil (i : Nat) : matchRead [] i = none := rfl

@[simp] theorem matchRead_cons (j : Nat) (k : Key) (m : MatchMemory) (i : Nat) :
    matchRead ((j, k) :: m) i = if j = i then some k else matchRead m i := rfl

/-- A cell below every listed index is not listed. -/
theorem matchRead_below {m : MatchMemory} {lo i : Nat} (h : matchSortedFrom lo m = true) (hi : i < lo) :
    matchRead m i = none := by
  induction m generalizing lo with
  | nil => rfl
  | cons c rest ih =>
    obtain ⟨j, k⟩ := c
    simp only [matchSortedFrom, Bool.and_eq_true, decide_eq_true_eq] at h
    rw [matchRead_cons, if_neg (by omega)]
    exact ih h.2 (by omega)

/-- Only the cells of MATCH are listed. -/
theorem matchRead_isSome_lt {m : MatchMemory} {lo i : Nat} (h : matchSortedFrom lo m = true)
    (hi : (matchRead m i).isSome = true) : i < keyspace := by
  induction m generalizing lo with
  | nil => simp at hi
  | cons c rest ih =>
    obtain ⟨j, k⟩ := c
    simp only [matchSortedFrom, Bool.and_eq_true, decide_eq_true_eq] at h
    rw [matchRead_cons] at hi
    split at hi
    · omega
    · exact ih h.2 hi

/-- Read after write, the cell written. -/
@[simp] theorem matchRead_matchWrite_same (m : MatchMemory) (i : Nat) (k : Key) :
    matchRead (matchWrite m i k) i = some k := by
  induction m with
  | nil => simp [matchWrite]
  | cons c rest ih =>
    obtain ⟨j, kj⟩ := c
    simp only [matchWrite]
    split
    · simp
    · split
      · simp
      · rw [matchRead_cons, if_neg (by omega), ih]

/-- Read after write, every other cell. -/
theorem matchRead_matchWrite_other (m : MatchMemory) {i j : Nat} (k : Key) (h : j ≠ i) :
    matchRead (matchWrite m i k) j = matchRead m j := by
  induction m with
  | nil => simp [matchWrite, h.symm]
  | cons c rest ih =>
    obtain ⟨a, ka⟩ := c
    simp only [matchWrite]
    split
    · simp [h.symm]
    · split
      · next h1 h2 => subst h2; simp [h.symm]
      · simp [ih]

/-- A write keeps the order of the listed cells. -/
theorem matchSortedFrom_matchWrite {m : MatchMemory} {lo i : Nat} (k : Key)
    (h : matchSortedFrom lo m = true) (hlo : lo ≤ i) (hi : i < keyspace) :
    matchSortedFrom lo (matchWrite m i k) = true := by
  induction m generalizing lo with
  | nil => simp only [matchWrite, matchSortedFrom, Bool.and_true, Bool.and_eq_true, decide_eq_true_eq]; omega
  | cons c rest ih =>
    obtain ⟨j, kj⟩ := c
    simp only [matchSortedFrom, Bool.and_eq_true, decide_eq_true_eq] at h
    simp only [matchWrite]
    split
    · simp only [matchSortedFrom, Bool.and_eq_true, decide_eq_true_eq]
      exact ⟨⟨hlo, hi⟩, ⟨by omega, h.1.2⟩, h.2⟩
    · split
      · next _ h2 =>
        subst h2
        simp only [matchSortedFrom, Bool.and_eq_true, decide_eq_true_eq]
        exact ⟨⟨hlo, hi⟩, h.2⟩
      · simp only [matchSortedFrom, Bool.and_eq_true, decide_eq_true_eq]
        exact ⟨h.1, ih h.2 (by omega)⟩

/-- A write to a cell of MATCH keeps the canonical form. -/
theorem matchWf_matchWrite {m : MatchMemory} {i : Nat} (k : Key) (h : matchWf m = true)
    (hi : i < keyspace) : matchWf (matchWrite m i k) = true :=
  matchSortedFrom_matchWrite k h (Nat.zero_le i) hi

/-- The memory at reset is in canonical form. -/
@[simp] theorem matchWf_nil : matchWf [] = true := rfl

theorem matchWf_reset : matchWf State.reset.matchMem = true := rfl

/-- Memories in canonical form with equal cells are equal lists. -/
theorem matchMemory_ext {m n : MatchMemory} {lo : Nat} (hm : matchSortedFrom lo m = true)
    (hn : matchSortedFrom lo n = true) (h : ∀ i, matchRead m i = matchRead n i) : m = n := by
  induction m generalizing lo n with
  | nil =>
    cases n with
    | nil => rfl
    | cons c rest => obtain ⟨j, k⟩ := c; simpa using h j
  | cons c rest ih =>
    obtain ⟨j, k⟩ := c
    cases n with
    | nil => simpa using h j
    | cons d rest' =>
      obtain ⟨j', k'⟩ := d
      simp only [matchSortedFrom, Bool.and_eq_true, decide_eq_true_eq] at hm hn
      have hj := h j
      have hj' := h j'
      simp only [matchRead_cons, if_true] at hj hj'
      have hjj : j = j' := by
        rcases Nat.lt_trichotomy j j' with hlt | heq | hgt
        · rw [if_neg (by omega), matchRead_below hn.2 (by omega)] at hj; cases hj
        · exact heq
        · rw [if_neg (by omega), matchRead_below hm.2 (by omega)] at hj'; cases hj'
      subst hjj
      rw [if_pos rfl] at hj
      cases hj
      congr 1
      refine ih hm.2 hn.2 fun i => ?_
      rcases Nat.lt_or_ge j i with hlt | hge
      · have := h i
        rwa [matchRead_cons, matchRead_cons, if_neg (by omega), if_neg (by omega)] at this
      · rw [matchRead_below hm.2 (by omega), matchRead_below hn.2 (by omega)]

/-- A written cell reads as the key written. -/
theorem matchCell_of_read {s : State} {i : Nat} {k : Key} (h : matchRead s.matchMem i = some k) :
    matchCell s i = k := by
  simp [matchCell, h]

end Sys2Proof.Machine
end

