-- ==== Sys2Proof/Laws/Steps.lean ====
section
/-! SUPPORT. What each shared operation can do, said once: an offset's target, a command, a write, a read,
the scanner's turn, one event and one step. Callers cite the case lemmas and unfold none of these. -/

namespace Sys2Proof.Machine

/-! ### Offsets -/

/-- The offset of a register names that register (R74). -/
@[simp] theorem targetOf_regOffset (r : Reg) : targetOf (regOffset r) = .reg r := by
  cases r <;> decide

/-- The offset of a MATCH entry names that entry (R37). -/
@[simp] theorem targetOf_matchOffset (i : BitVec 10) : targetOf (matchOffset i) = .matchEntry i := by
  have hi := i.isLt
  have hn : (matchOffset i).toNat = 0x1000 + 4 * i.toNat := by
    simp [matchOffset, BitVec.toNat_add, BitVec.toNat_shiftLeft, Nat.shiftLeft_eq]
    omega
  have hlow : (matchOffset i).extractLsb' 0 2 = 0 := by
    apply BitVec.eq_of_toNat_eq
    simp [BitVec.extractLsb'_toNat, hn]
  have hidx : (matchOffset i).extractLsb' 2 10 = i := by
    apply BitVec.eq_of_toNat_eq
    simp [BitVec.extractLsb'_toNat, hn, Nat.shiftRight_eq_div_pow]
    omega
  unfold targetOf
  rw [if_neg (by simp [hlow]), if_neg (by omega), if_neg (by omega), hidx]

/-- An offset is misaligned exactly when it is no multiple of 4 (R76). -/
theorem targetOf_misaligned {off : Offset} : targetOf off = .misaligned ↔ off.toNat % 4 ≠ 0 := by
  have h : off.extractLsb' 0 2 ≠ 0 ↔ off.toNat % 4 ≠ 0 := by
    rw [ne_eq, ← BitVec.toNat_inj]
    simp [BitVec.extractLsb'_toNat]
  unfold targetOf
  constructor
  · intro ht
    split at ht
    · next hc => exact h.1 hc
    · split at ht
      · cases ht
      · split at ht <;> cases ht
  · intro hm
    rw [if_pos (h.2 hm)]

/-- An aligned offset is unmapped exactly when it lies in `0x0040 .. 0x0FFF` (R70, R79). -/
theorem targetOf_unmapped {off : Offset} :
    targetOf off = .unmapped ↔ off.toNat % 4 = 0 ∧ 0x40 ≤ off.toNat ∧ off.toNat < 0x1000 := by
  have hm := targetOf_misaligned (off := off)
  constructor
  · intro ht
    rw [ht] at hm
    unfold targetOf at ht
    split at ht
    · cases ht
    · split at ht
      · cases ht
      · split at ht
        · refine ⟨?_, by omega, by omega⟩
          by_contra hc
          exact absurd (hm.2 hc) (by simp)
        · cases ht
  · rintro ⟨h4, hlo, hhi⟩
    unfold targetOf at hm ⊢
    split at hm
    · next hc => exact absurd (hm.1 rfl) (by omega)
    · next hc => rw [if_neg hc, if_neg (by omega), if_pos hhi]

/-- The accesses at a register's offset are that register's (R81, R82). -/
@[simp] theorem memRead_regOffset (r : Reg) (s : State) :
    memRead (regOffset r) s = (readReg s r, s) := by
  simp [memRead]

@[simp] theorem memWrite_regOffset (r : Reg) (v : Word) (s : State) :
    memWrite (regOffset r) v s = writeReg r v s := by
  simp [memWrite]

/-- The accesses at a MATCH entry's offset (R37, R80). -/
@[simp] theorem memRead_matchOffset (i : BitVec 10) (s : State) :
    memRead (matchOffset i) s = (readMatch s i, s) := by
  simp [memRead]

@[simp] theorem memWrite_matchOffset (i : BitVec 10) (v : Word) (s : State) :
    memWrite (matchOffset i) v s = .next (raiseError .access s) := by
  simp [memWrite]

/-- Entry `i` stands at `0x1000 + 4*i` (R37). -/
theorem matchOffset_eq {i : Nat} (h : i < 1024) :
    matchOffset (BitVec.ofNat 10 i) = BitVec.ofNat 13 (0x1000 + 4 * i) := by
  apply BitVec.eq_of_toNat_eq
  simp [matchOffset, BitVec.toNat_add, BitVec.toNat_shiftLeft, Nat.shiftLeft_eq]
  omega

/-! ### Commands -/

/-- The lock-out drops the command (R238). -/
theorem unlessLocked_dropped (effect : State → State) {s : State} (h : s.err ≠ 0) :
    unlessLocked effect s = s := if_pos h

/-- With ERR = 0 the command has its effect (R101). -/
theorem unlessLocked_runs (effect : State → State) {s : State} (h : s.err = 0) :
    unlessLocked effect s = effect s := if_neg (by simp [h])

/-- What a command can do to the state (R101, R146, R171, R172, R192, R193, R203, R221, R222). -/
inductive ExecCase (s : State) : Instr → State → Prop
  /-- NOP. -/
  | nop : ExecCase s .nop s
  /-- A command dropped by the lock-out. -/
  | dropped (i : Instr) (hi : i = .keygen ∨ i = .enc ∨ i = .dec ∨ i = .search) (h : s.err ≠ 0) :
    ExecCase s i s
  | keygen (h : s.err = 0) : ExecCase s .keygen (deriveSubkeys s)
  | enc (h : s.err = 0) : ExecCase s .enc (encEffect s)
  | dec (h : s.err = 0) : ExecCase s .dec (decEffect s)
  | busy (h : s.err = 0) (hb : s.sbusy = true) : ExecCase s .search (raiseError .busy s)
  | search (h : s.err = 0) (hb : s.sbusy = false) : ExecCase s .search (startScan s)
  | abort (hb : s.sbusy = true) : ExecCase s .abort { s with sbusy := false, sabort := true }
  | abortIdle (hb : s.sbusy = false) : ExecCase s .abort s
  | srst : ExecCase s .srst (resetBlock s)

/-- Every command answers a next state, and one of the cases holds. -/
theorem exec_spec (i : Instr) (s : State) : ∃ t, exec i s = .next t ∧ ExecCase s i t := by
  cases i with
  | nop => exact ⟨_, rfl, .nop⟩
  | keygen =>
    by_cases he : s.err = 0
    · exact ⟨_, congrArg Host.Outcome.next (unlessLocked_runs _ he), .keygen he⟩
    · exact ⟨_, congrArg Host.Outcome.next (unlessLocked_dropped _ he), .dropped _ (by tauto) he⟩
  | enc =>
    by_cases he : s.err = 0
    · exact ⟨_, congrArg Host.Outcome.next (unlessLocked_runs _ he), .enc he⟩
    · exact ⟨_, congrArg Host.Outcome.next (unlessLocked_dropped _ he), .dropped _ (by tauto) he⟩
  | dec =>
    by_cases he : s.err = 0
    · exact ⟨_, congrArg Host.Outcome.next (unlessLocked_runs _ he), .dec he⟩
    · exact ⟨_, congrArg Host.Outcome.next (unlessLocked_dropped _ he), .dropped _ (by tauto) he⟩
  | search =>
    by_cases he : s.err = 0
    · refine ⟨_, congrArg Host.Outcome.next (unlessLocked_runs _ he), ?_⟩
      unfold searchEffect
      cases hb : s.sbusy
      · exact .search he hb
      · exact .busy he hb
    · exact ⟨_, congrArg Host.Outcome.next (unlessLocked_dropped _ he), .dropped _ (by tauto) he⟩
  | abort =>
    refine ⟨_, rfl, ?_⟩
    split
    · next hb => exact .abort hb
    · next hb => exact .abortIdle (by simpa using hb)
  | srst => exact ⟨_, rfl, .srst⟩

theorem exec_cases {i : Instr} {s t : State} (h : exec i s = .next t) : ExecCase s i t := by
  obtain ⟨u, hu, hc⟩ := exec_spec i s
  rw [hu] at h
  cases h
  exact hc

/-! ### Host accesses -/

/-- What a host write can do to the state (R79, R80, R82). -/
inductive WriteCase (s : State) (off : Offset) (v : Word) : State → Prop
  | raised (e : ErrorCause) : WriteCase s off v (raiseError e s)
  | command (ht : targetOf off = .reg .cmd) (i : Instr) (hd : decode v = .command i) {t : State}
    (hc : ExecCase s i t) : WriteCase s off v t
  | acknowledged (ht : targetOf off = .reg .err) : WriteCase s off v (acknowledgeErrors v s)
  | key (ht : targetOf off = .reg .key) :
    WriteCase s off v { s with key := v.setWidth 10, kvalid := false, lastop := 0 }
  | din (ht : targetOf off = .reg .din) : WriteCase s off v { s with din := v.setWidth 8, lastop := 0 }
  | spt (ht : targetOf off = .reg .spt) (hb : s.sbusy = false) :
    WriteCase s off v { s with spt := v.setWidth 8 }
  | sct (ht : targetOf off = .reg .sct) (hb : s.sbusy = false) :
    WriteCase s off v { s with sct := v.setWidth 8 }
  | ie (ht : targetOf off = .reg .ie) : WriteCase s off v { s with ie := v.setWidth 3 }
  | ip (ht : targetOf off = .reg .ip) : WriteCase s off v { s with ip := clearOnes s.ip v }

/-- Every host write answers a next state, and one of the cases holds. -/
theorem memWrite_spec (off : Offset) (v : Word) (s : State) :
    ∃ t, memWrite off v s = .next t ∧ WriteCase s off v t := by
  unfold memWrite
  cases ht : targetOf off with
  | matchEntry i => exact ⟨_, rfl, .raised _⟩
  | unmapped => exact ⟨_, rfl, .raised _⟩
  | misaligned => exact ⟨_, rfl, .raised _⟩
  | reg r =>
    cases r with
    | cmd =>
      simp only [writeReg, runCommand]
      cases hd : decode v with
      | illegal e => exact ⟨_, rfl, .raised _⟩
      | command i =>
        obtain ⟨t, he, hc⟩ := exec_spec i s
        exact ⟨t, he, .command ht i hd hc⟩
    | err => exact ⟨_, rfl, .acknowledged ht⟩
    | key =>
      simp only [writeReg, writeKey]
      split
      · exact ⟨_, rfl, .raised _⟩
      · exact ⟨_, rfl, .key ht⟩
    | din =>
      simp only [writeReg, writeDin]
      split
      · exact ⟨_, rfl, .raised _⟩
      · exact ⟨_, rfl, .din ht⟩
    | spt =>
      simp only [writeReg, writeSpt]
      split
      · exact ⟨_, rfl, .raised _⟩
      · next hb =>
        split
        · exact ⟨_, rfl, .raised _⟩
        · exact ⟨_, rfl, .spt ht (by simpa using hb)⟩
    | sct =>
      simp only [writeReg, writeSct]
      split
      · exact ⟨_, rfl, .raised _⟩
      · next hb =>
        split
        · exact ⟨_, rfl, .raised _⟩
        · exact ⟨_, rfl, .sct ht (by simpa using hb)⟩
    | ie => exact ⟨_, rfl, .ie ht⟩
    | ip => exact ⟨_, rfl, .ip ht⟩
    | _ => exact ⟨_, rfl, .raised _⟩

theorem memWrite_cases {off : Offset} {v : Word} {s t : State} (h : memWrite off v s = .next t) :
    WriteCase s off v t := by
  obtain ⟨u, hu, hc⟩ := memWrite_spec off v s
  rw [hu] at h
  cases h
  exact hc

/-- A host read changes nothing, or raises ACCESS and returns 0 (R78, R79, R81). -/
theorem memRead_cases (off : Offset) (s : State) :
    (memRead off s).2 = s ∨ memRead off s = (0, raiseError .access s) := by
  unfold memRead
  split
  · exact .inl rfl
  · exact .inl rfl
  · exact .inr rfl
  · exact .inr rfl

/-! ### The scanner's turn -/

/-- What the scanner's turn can do (R196, R197). -/
inductive TurnCase (s : State) : State → Prop
  /-- No scanner step is enabled. -/
  | idle (hb : s.sbusy = false) : TurnCase s s
  /-- A trial whose key does not match. -/
  | missed (hb : s.sbusy = true) (hk : s.kcnt.toNat < 1024) (hm : trialMatches s = false) :
    TurnCase s (advanceScan s)
  /-- A trial whose key matches. -/
  | matched (hb : s.sbusy = true) (hk : s.kcnt.toNat < 1024) (hm : trialMatches s = true)
    (hc : s.mcount.toNat < 1024) : TurnCase s (advanceScan (appendMatch s))

theorem scannerTurn_cases {s t : State} (h : scannerTurn s = .next t) : TurnCase s t := by
  unfold scannerTurn trial at h
  split at h
  · next hb =>
    split at h
    · cases h
    · next hk =>
      split at h
      · next hm =>
        split at h
        · cases h
        · next hc => cases h; exact .matched hb (by simpa using hk) hm (by simpa using hc)
      · next hm => cases h; exact .missed hb (by simpa using hk) (by simpa using hm)
  · next hb => cases h; exact .idle (by simpa using hb)

/-- The scanner's turn answers a next state where the key and the next MATCH cell exist. -/
theorem scannerTurn_next {s : State}
    (h : s.sbusy = true → s.kcnt.toNat < 1024 ∧ s.mcount.toNat < 1024) :
    ∃ t, scannerTurn s = .next t := by
  unfold scannerTurn trial
  split
  · next hb =>
    obtain ⟨hk, hc⟩ := h hb
    rw [if_neg (show ¬keyspace ≤ s.kcnt.toNat by simpa using hk)]
    split
    · rw [if_neg (show ¬keyspace ≤ s.mcount.toNat by simpa using hc)]
      exact ⟨_, rfl⟩
    · exact ⟨_, rfl⟩
  · exact ⟨_, rfl⟩

/-! ### Events and steps -/

/-- What one event can do (R15). -/
inductive EventCase (s : State) : Event → State → Prop
  | read (off : Offset) (w : Word) : EventCase s (.read off) { s with response := .data w }
  | readBad (off : Offset) : EventCase s (.read off) { raiseError .access s with response := .data 0 }
  | write (off : Offset) (v : Word) {t : State} (hc : WriteCase { s with response := .written } off v t) :
    EventCase s (.write off v) t
  | reset : EventCase s .reset (resetBlock s)
  | trial {t : State} (hc : TurnCase s t) : EventCase s .trial t

theorem runEvent_cases {e : Event} {s t : State} (h : runEvent e s = .next t) : EventCase s e t := by
  cases e with
  | read off =>
    simp only [runEvent, Host.Outcome.next.injEq] at h
    subst h
    rcases memRead_cases off s with hr | hr
    · rw [hr]; exact .read off _
    · rw [hr]; exact .readBad off
  | write off v => exact .write off v (memWrite_cases h)
  | reset => simp only [runEvent, Host.Outcome.next.injEq] at h; subst h; exact .reset
  | trial => exact .trial (scannerTurn_cases h)

/-- The state as an event finds it: its event is taken off the schedule and the port's answer is empty. -/
def atEvent (s : State) (rest : List Event) : State := { s with schedule := rest, response := .none }

/-- What one step can do: the next event, or the scanner's turn where nothing is scheduled. -/
inductive StepCase (s : State) : State → Prop
  | silent (hs : s.schedule = []) {t : State} (hc : TurnCase (atEvent s []) t) : StepCase s t
  | event (e : Event) (rest : List Event) (hs : s.schedule = e :: rest) {t : State}
    (hc : EventCase (atEvent s rest) e t) : StepCase s t

theorem step_cases {s t : State} (h : step s = .next t) : StepCase s t := by
  unfold step nextMove at h
  cases hs : s.schedule with
  | nil =>
    simp only [hs] at h
    refine .silent hs (scannerTurn_cases ?_)
    simpa only [atEvent, hs] using h
  | cons e rest =>
    simp only [hs] at h
    exact .event e rest hs (runEvent_cases h)

/-- No step refuses. -/
theorem step_not_refused (s : State) (r : Refusal) : step s ≠ .refused r := by
  have turn (u : State) : scannerTurn u ≠ .refused r := by
    unfold scannerTurn trial
    split
    · split
      · simp
      · split
        · split <;> simp
        · simp
    · simp
  unfold step nextMove
  split
  · exact turn _
  · next e rest hs =>
    cases e with
    | read off => simp [runEvent]
    | write off v =>
      obtain ⟨t, ht, -⟩ := memWrite_spec off v { s with schedule := rest, response := .written }
      simp only [runEvent]
      rw [ht]
      simp
    | reset => simp [runEvent]
    | trial => exact turn _

end Sys2Proof.Machine
end

