-- ==== Sys2Proof/Laws/Host.lean ====
section
/-! SUPPORT. What a run of a host program does, access by access: the callers of these lemmas unfold neither
`hostRun` nor `runProgram`. -/

namespace Sys2Proof.Machine

/-! ### Runs on events -/

@[simp] theorem andThen_next {α β : Type} (a : α) (f : α → Host.Outcome β Fault Refusal) :
    andThen (.next a) f = f a := rfl

@[simp] theorem hostRun_nil (s : State) : hostRun [] s = .next (s, []) := rfl

/-- One event of a run: it meets the state with an empty port and the schedule as it was. -/
theorem hostRun_cons {e : Event} {es : List Event} {s t : State}
    (h : runEvent e { s with response := .none } = .next t) :
    hostRun (e :: es) s
      = andThen (hostRun es t) fun r => .next (r.1, responseWords t.response ++ r.2) := by
  have hs : step { s with schedule := e :: s.schedule } = .next t := h
  simp [hostRun, hs]

theorem hostRun_append {as bs : List Event} {s t : State} {ws : List Word}
    (h : hostRun as s = .next (t, ws)) :
    hostRun (as ++ bs) s = andThen (hostRun bs t) fun r => .next (r.1, ws ++ r.2) := by
  induction as generalizing s ws with
  | nil =>
    cases h
    cases hb : hostRun bs t <;> simp [andThen, hb]
  | cons e as ih =>
    simp only [hostRun, List.cons_append] at h ⊢
    cases hs : step { s with schedule := e :: s.schedule } with
    | fault f => simp [hs, andThen] at h
    | refused r => simp [hs, andThen] at h
    | next s1 =>
      simp only [hs, andThen_next] at h ⊢
      cases ha : hostRun as s1 with
      | fault f => simp [ha, andThen] at h
      | refused r => simp [ha, andThen] at h
      | next r =>
        simp only [ha, andThen_next, Host.Outcome.next.injEq, Prod.mk.injEq] at h
        obtain ⟨rfl, rfl⟩ := h
        rw [ih ha]
        cases hb : hostRun bs r.1 <;> simp [andThen]

/-! ### One access -/

theorem decode_encode_command (i : Instr) : decode (encode i) = .command i := by cases i <;> decide

/-- A write to a register as an event (R82). -/
theorem runEvent_wr (r : Reg) (v : Word) (s : State) :
    runEvent (wr r v) s = writeReg r v { s with response := .written } := by
  simp [runEvent, wr]

/-- A read of a register as an event (R81). -/
theorem runEvent_rd (r : Reg) (s : State) :
    runEvent (rd r) s = .next { s with response := .data (readReg s r) } := by
  simp [runEvent, rd]

/-- A read of a MATCH entry as an event (R37). -/
theorem runEvent_rdMatch (i : BitVec 10) (s : State) :
    runEvent (rdMatch i) s = .next { s with response := .data (readMatch s i) } := by
  simp [runEvent, rdMatch]

/-- A command as an event (R101). -/
theorem runEvent_cmd (i : Instr) (s : State) :
    runEvent (cmd i) s = exec i { s with response := .written } := by
  simp [cmd, runEvent_wr, writeReg, runCommand, decode_encode_command]

/-! ### Programs -/

@[simp] theorem mapProgram_done {α β : Type} (f : α → β) (a : α) : mapProgram f (.done a) = .done (f a) := rfl

@[simp] theorem mapProgram_wrThen {α β : Type} (f : α → β) (r : Reg) (v : Word) (next : HostProgram α) :
    mapProgram f (wrThen r v next) = wrThen r v (mapProgram f next) := rfl

@[simp] theorem mapProgram_cmdThen {α β : Type} (f : α → β) (i : Instr) (next : HostProgram α) :
    mapProgram f (cmdThen i next) = cmdThen i (mapProgram f next) := rfl

@[simp] theorem mapProgram_rdThen {α β : Type} (f : α → β) (r : Reg) (next : Word → HostProgram α) :
    mapProgram f (rdThen r next) = rdThen r fun w => mapProgram f (next w) := rfl

@[simp] theorem mapProgram_sample {α β : Type} (f : α → β) (next : Bool → HostProgram α) :
    mapProgram f (.sample next) = .sample fun level => mapProgram f (next level) := rfl

@[simp] theorem waitThen_polling {α : Type} (served quiet : HostProgram α) :
    waitThen .polling served quiet = served := rfl

/-- What `callError` answers (log entry 17). -/
theorem callError_width {err : BitVec 4} (h : err.getLsbD 0 = true) :
    callError err = .widthMismatch := if_pos h

theorem callError_other {err : BitVec 4} (h : err.getLsbD 0 = false) : callError err = .hardware err :=
  if_neg (by rw [h]; decide)

@[simp] theorem runProgram_done {α : Type} (turns : Nat → Nat) (a : α) (s : State) :
    runProgram turns (.done a) s = .next (s, a) := rfl

/-- An access of a program, where the scanner's turns before it end in `u`. -/
theorem runProgram_rdThen {α : Type} {turns : Nat → Nat} {r : Reg} {next : Word → HostProgram α}
    {s u : State} (hu : hostRun (List.replicate (turns 0) .trial) s = .next (u, [])) :
    runProgram turns (rdThen r next) s
      = runProgram (fun n => turns (n + 1)) (next (readReg u r))
          { u with response := .data (readReg u r) } := by
  have h1 := hostRun_cons (es := []) (runEvent_rd r { u with response := .none })
  simp only [hostRun_nil, andThen_next] at h1
  have h2 := hostRun_append (bs := [rd r]) hu
  rw [h1] at h2
  change andThen (hostRun (List.replicate (turns 0) .trial ++ [rd r]) s) _ = _
  rw [h2]
  cases r <;> rfl

/-- A look at `irq`, where the scanner's turns before it end in `u`. -/
theorem runProgram_sample {α : Type} {turns : Nat → Nat} {next : Bool → HostProgram α} {s u : State}
    (hu : hostRun (List.replicate (turns 0) .trial) s = .next (u, [])) :
    runProgram turns (.sample next) s = runProgram (fun n => turns (n + 1)) (next (irq u)) u := by
  simp [runProgram, hu]

theorem runProgram_wrThen {α : Type} {turns : Nat → Nat} {r : Reg} {v : Word} {next : HostProgram α}
    {s u t : State} (hu : hostRun (List.replicate (turns 0) .trial) s = .next (u, []))
    (hw : writeReg r v { u with response := .written } = .next t) :
    runProgram turns (wrThen r v next) s = runProgram (fun n => turns (n + 1)) next t := by
  have h1 := hostRun_cons (es := []) (s := u) ((runEvent_wr r v { u with response := .none }).trans hw)
  simp only [hostRun_nil, andThen_next] at h1
  have h2 := hostRun_append (bs := [wr r v]) hu
  rw [h1] at h2
  change andThen (hostRun (List.replicate (turns 0) .trial ++ [wr r v]) s) _ = _
  rw [h2]
  rfl

theorem runProgram_cmdThen {α : Type} {turns : Nat → Nat} {i : Instr} {next : HostProgram α}
    {s u t : State} (hu : hostRun (List.replicate (turns 0) .trial) s = .next (u, []))
    (hc : exec i { u with response := .written } = .next t) :
    runProgram turns (cmdThen i next) s = runProgram (fun n => turns (n + 1)) next t :=
  runProgram_wrThen hu (by simpa [writeReg, runCommand, decode_encode_command] using hc)

end Sys2Proof.Machine
end

