-- ==== Sys2Proof/Laws/PerInstr.lean ====
section
/-! SUPPORT. What holds of each command as a word (spec/30_encoding.md rules R100, R102). -/

namespace Sys2Proof.Laws.CommandWord

/-- The command is well formed, its word has no reserved bit set, its OP is below 7, and its word is that
OP as a number. -/
def Statement (i : Instr) : Prop :=
  i.wf = true ∧ reservedField (encode i) = 0 ∧ (opCode i).toNat < 7
    ∧ (encode i).toNat = (opCode i).toNat

theorem nop : Statement .nop := by unfold Statement; decide
theorem keygen : Statement .keygen := by unfold Statement; decide
theorem enc : Statement .enc := by unfold Statement; decide
theorem dec : Statement .dec := by unfold Statement; decide
theorem search : Statement .search := by unfold Statement; decide
theorem abort : Statement .abort := by unfold Statement; decide
theorem srst : Statement .srst := by unfold Statement; decide

end Sys2Proof.Laws.CommandWord
end

