-- ==== Sys2Proof/Laws/Primitives.lean ====
section
/-! SUPPORT. What the bit-vector primitives do, bit by bit: callers cite these lemmas and do not unfold
the primitives. -/

namespace Sys2Proof.Machine

/-- Output bit `j` of a permute (index numbering, R121). -/
theorem getLsbD_permute {m n : Nat} (v : BitVec m) (t : PermTable m n) (j : Nat) (h : j < n) :
    (permute v t).getLsbD j = v.getMsbD (t[n - 1 - j]'(by omega)).val := by
  simp [permute, h]

/-- Output position `q + 1` of a permute (position numbering, R121). -/
theorem getMsbD_permute {m n : Nat} (v : BitVec m) (t : PermTable m n) (q : Nat) (h : q < n) :
    (permute v t).getMsbD q = v.getMsbD (t[q]'h).val := by
  rw [BitVec.getMsbD_eq_getLsbD, getLsbD_permute _ _ _ (by omega)]
  have hq : n - 1 - (n - 1 - q) = q := by omega
  simp [h, hq]

/-- Two vectors with the same bit at every position are equal. -/
theorem eq_of_getMsbD {w : Nat} {a b : BitVec w} (h : ∀ q < w, a.getMsbD q = b.getMsbD q) : a = b := by
  apply BitVec.eq_of_getLsbD_eq
  intro i hi
  have := h (w - 1 - i) (by omega)
  rw [BitVec.getMsbD_eq_getLsbD, BitVec.getMsbD_eq_getLsbD] at this
  have e : w - 1 - (w - 1 - i) = i := by omega
  simpa [e, show w - 1 - i < w by omega] using this

/-- A permute is wiring, so it passes through XOR (R145 (b)). -/
theorem permute_xor {m n : Nat} (a b : BitVec m) (t : PermTable m n) :
    permute (a ^^^ b) t = permute a t ^^^ permute b t := by
  apply eq_of_getMsbD
  intro q hq
  simp [getMsbD_permute, hq]

/-- All-zero input gives all-zero output (R122 (a)). -/
@[simp] theorem permute_zero {m n : Nat} (t : PermTable m n) : permute 0#m t = 0#n := by
  apply eq_of_getMsbD
  intro q hq
  simp [getMsbD_permute, hq]

/-- All-one input gives all-one output (R122 (a)). -/
@[simp] theorem permute_allOnes {m n : Nat} (t : PermTable m n) :
    permute (BitVec.allOnes m) t = BitVec.allOnes n := by
  apply eq_of_getMsbD
  intro q hq
  have hp := (t[q]'hq).isLt
  rw [getMsbD_permute _ _ _ hq]
  simp only [BitVec.getMsbD_eq_getLsbD, BitVec.getLsbD_allOnes, hp, hq, decide_true, Bool.true_and, show m - 1 - (t[q]'hq).val < m by omega,
    show n - 1 - q < n by omega]

/-- Permuting twice follows the two tables in turn. -/
theorem getMsbD_permute_permute {m n k : Nat} (v : BitVec m) (t : PermTable m n) (u : PermTable n k)
    (q : Nat) (h : q < k) :
    (permute (permute v t) u).getMsbD q = v.getMsbD (t[(u[q]'h).val]'(u[q]'h).isLt).val := by
  rw [getMsbD_permute _ _ _ h, getMsbD_permute]

theorem undoes_entry {n : Nat} {t u : PermTable n n} (h : t.undoes u = true) (q : Fin n) :
    t[u[q]] = q := by
  simpa using List.all_eq_true.1 h q (List.mem_finRange q)

/-- A table that undoes another is undone by it: both are wirings of `n` wires to `n` wires. -/
theorem undone_entry {n : Nat} {t u : PermTable n n} (h : t.undoes u = true) (q : Fin n) :
    u[t[q]] = q := by
  have after (p : Fin n) : (fun x : Fin n => t[x]) ((fun x : Fin n => u[x]) p) = p := undoes_entry h p
  have hinj : Function.Injective fun x : Fin n => u[x] :=
    Function.LeftInverse.injective (g := fun x : Fin n => t[x]) after
  obtain ⟨p, rfl⟩ := (Finite.injective_iff_surjective.1 hinj) q
  exact congrArg (fun x : Fin n => u[x]) (after p)

/-- Permuting by a table and then by its inverse gives the input back (R44, R48 (d)). -/
theorem permute_undoes {n : Nat} {t u : PermTable n n} (h : t.undoes u = true) (v : BitVec n) :
    permute (permute v t) u = v := by
  apply eq_of_getMsbD
  intro q hq
  rw [getMsbD_permute_permute _ _ _ _ hq]
  exact congrArg (fun p : Fin n => v.getMsbD p.val) (undoes_entry h ⟨q, hq⟩)

/-- The same in the other order (R175). -/
theorem permute_undone {n : Nat} {t u : PermTable n n} (h : t.undoes u = true) (v : BitVec n) :
    permute (permute v u) t = v := by
  apply eq_of_getMsbD
  intro q hq
  rw [getMsbD_permute_permute _ _ _ _ hq]
  exact congrArg (fun p : Fin n => v.getMsbD p.val) (undone_entry h ⟨q, hq⟩)

/-- `left` of a concatenation is its high part (R129). -/
@[simp] theorem left_append {w : Nat} (a b : BitVec w) : left (a ++ b) = a := by
  unfold left
  ext i hi
  simp [BitVec.getLsbD_append, BitVec.getElem_extractLsb', BitVec.getLsbD_eq_getElem hi]

/-- `right` of a concatenation is its low part (R129). -/
@[simp] theorem right_append {w : Nat} (a b : BitVec w) : right (a ++ b) = b := by
  unfold right
  ext i hi
  simp [BitVec.getLsbD_append, hi, BitVec.getElem_extractLsb']

/-- A vector is its halves joined (R129). -/
theorem left_append_right {w : Nat} (v : BitVec (w + w)) : left v ++ right v = v := by
  unfold left right
  apply BitVec.eq_of_getLsbD_eq
  intro i hi
  rw [BitVec.getLsbD_append]
  split
  · simp; omega
  · simp only [BitVec.getLsbD_extractLsb']
    rw [show w + (i - w) = i by omega]
    simp; omega

/-- XOR with the same vector twice changes nothing (R125). -/
@[simp] theorem xor_xor_cancel {w : Nat} (a b : BitVec w) : xor (xor a b) b = a := by
  simp [xor]

end Sys2Proof.Machine
end

