-- ==== Sys2Proof/Tests/Slice0.lean ====
section
/-! SUPPORT. Tests, each one step or one evaluation, and for every statement with hypotheses a witness that
meets them. Expected values come from spec/95_test_vectors.md and from the worked examples of the rules. -/

namespace Sys2Proof.Tests
open Sys2Proof Sys2Proof.Machine

-- One test after another: each kernel evaluation that waits for an earlier one would hold a thread of its own.
set_option Elab.async false

/-! ### WellFormed: each check refuses an ill-formed configuration -/

/-- The default configuration with other tables. -/
def withTables (t : Tables) : Config := { defaultConfig with tables := t }

theorem test_wf_default : defaultConfig.wf = true := by decide +kernel
theorem test_wf_commands : Instr.nop.wf && Instr.keygen.wf && Instr.enc.wf && Instr.dec.wf
    && Instr.search.wf && Instr.abort.wf && Instr.srst.wf = true := by decide
theorem test_wf_p10_repeats :
    (withTables { defaultTables with p10 := tableP10.set 0 9 }).wf = false := by decide +kernel
theorem test_wf_p8_repeats :
    (withTables { defaultTables with p8 := tableP8.set 0 2 }).wf = false := by decide +kernel
theorem test_wf_ip_repeats :
    (withTables { defaultTables with ip := tableIP.set 0 0 }).wf = false := by decide +kernel
theorem test_wf_ipinv_repeats :
    (withTables { defaultTables with ipinv := tableIPINV.set 0 0 }).wf = false := by decide +kernel
theorem test_wf_p4_repeats :
    (withTables { defaultTables with p4 := tableP4.set 0 0 }).wf = false := by decide +kernel
theorem test_wf_ep_misses_position_4 :
    (withTables { defaultTables with ep := (tableEP.set 0 0).set 6 0 }).wf = false := by decide +kernel
theorem test_wf_ipinv_not_inverse :
    (withTables { defaultTables with ipinv := tableIP }).wf = false := by decide +kernel
theorem test_wf_interval_1 : Config.wf { defaultConfig with progInterval := 1 } = false := by decide +kernel
theorem test_wf_interval_1025 :
    Config.wf { defaultConfig with progInterval := 1025 } = false := by decide +kernel
theorem test_wf_interval_ends : Config.wf { defaultConfig with progInterval := 2 }
    && Config.wf { defaultConfig with progInterval := 1024 } = true := by decide +kernel
theorem test_wf_base_unaligned :
    Config.wf { defaultConfig with base := some 4096 } = false := by decide +kernel
theorem test_wf_base_aligned : Config.wf { defaultConfig with base := some 16384 } = true := by decide +kernel

/-! ### Decoding: the words of R102, written out bit by bit -/

theorem test_decode_nop : decode 0b00000000000000000000000000000000#32 = .command .nop := by decide
theorem test_decode_keygen : decode 0b00000000000000000000000000000001#32 = .command .keygen := by decide
theorem test_decode_enc : decode 0b00000000000000000000000000000010#32 = .command .enc := by decide
theorem test_decode_dec : decode 0b00000000000000000000000000000011#32 = .command .dec := by decide
theorem test_decode_search : decode 0b00000000000000000000000000000100#32 = .command .search := by decide
theorem test_decode_abort : decode 0b00000000000000000000000000000101#32 = .command .abort := by decide
theorem test_decode_srst : decode 0b00000000000000000000000000000110#32 = .command .srst := by decide
theorem test_decode_op_7 : decode 0x00000007 = .illegal .undefinedOp := by decide
theorem test_decode_bit_4 : decode 0x00000010 = .illegal .reservedBits := by decide
theorem test_decode_bit_31 : decode 0x80000002 = .illegal .reservedBits := by decide
theorem test_table_word : decodeTableWord 32 3 = some .dec := by decide
theorem test_table_word_short : decodeTableWord 8 0x104 = some .search := by decide
theorem test_table_word_too_long : decodeTableWord 40 0x100000002 = none := by decide

/-! ### The cipher (spec/95 sections 2 to 4) -/

theorem test_permute_p10 : permute 0b1000000000#10 tableP10 = 0b0000001000#10 := by decide +kernel
theorem test_permute_ep : permute 0b1011#4 tableEP = 0b11010111#8 := by decide +kernel
theorem test_rotate_7_of_5 : rotateLeft 0b10110#5 7 = 0b11010#5 := by decide
theorem test_sbox1_0001 : sboxLookup 0b0001#4 tableSBOX1 = 0b11#2 := by decide +kernel
theorem test_sbox2_1100 : sboxLookup 0b1100#4 tableSBOX2 = 0b01#2 := by decide +kernel
theorem test_keys_31E : keySchedule defaultTables 0x31E = (0xE9, 0xA7) := by decide +kernel
theorem test_f_0100 : roundF defaultTables 0x4 0xA4 = 0x4 := by decide +kernel
theorem test_encrypt_hi : encrypt defaultTables 0x48 0x282 = 0xE0
    ∧ encrypt defaultTables 0x69 0x282 = 0xC7 := by decide +kernel

/-! ### Small states -/

/-- The state after reset with a key, an input block and an error field. -/
def st (key : Key) (din : Block) (err : BitVec 4) : State :=
  { State.reset with key := key, din := din, err := err }

/-- A scan of the pair (0, `sct`) just started (R192). -/
def scanOf (sct : Block) : State := startScan { State.reset with sct := sct }

/-- A scan at trial `k`, with `m` matches counted. -/
def scanAt (sct : Block) (k m : BitVec 11) : State := { scanOf sct with kcnt := k, mcount := m }

/-- A fact about the next state, for tests that look at one field. -/
def after (o : Host.Outcome State Fault Refusal) (p : State → Bool) : Bool :=
  match o with
  | .next t => p t
  | .fault _ => false
  | .refused _ => false

/-! ### The commands -/

theorem test_nop : exec .nop (st 0x282 0xA5 0x4) = .next (st 0x282 0xA5 0x4) := rfl
theorem test_keygen : after (exec .keygen (st 0x31E 0 0))
    (fun t => t.k1 == 0xE9 && t.k2 == 0xA7 && statusWord t == 0x8 && t.dout == 0) = true := by decide +kernel
theorem test_keygen_locked_out : exec .keygen (st 0x31E 0 1) = .next (st 0x31E 0 1) := rfl
theorem test_enc : after (exec .enc (st 0x282 0xA5 0))
    (fun t => t.dout == 0xCA && t.k1 == 0xA4 && t.k2 == 0x43 && statusWord t == 0x18) = true := by
  decide +kernel
theorem test_enc_after_reset : after (exec .enc State.reset) (fun t => t.dout == 0xF0) = true := by
  decide +kernel
theorem test_dec : after (exec .dec (st 0x282 0xCA 0))
    (fun t => t.dout == 0xA5 && t.k1 == 0xA4 && t.k2 == 0x43 && statusWord t == 0x28) = true := by
  decide +kernel
theorem test_dec_d00_literal : after (exec .dec (st 0x282 0x11 0)) (fun t => t.dout == 0xE4) = true := by
  decide +kernel
theorem test_search : after (exec .search { st 0 0 0 with spt := 0xA5, sct := 0xCA, kcnt := 7, ip := 3 })
    (fun t => statusWord t == 1 && t.kcnt == 0 && t.mcount == 0 && t.ip == 3) = true := by decide
theorem test_search_busy : after (exec .search (scanAt 0 5 1))
    (fun t => t.err == 0b0100 && t.kcnt == 5 && t.mcount == 1 && t.sbusy) = true := by decide
theorem test_abort : after (exec .abort { scanAt 0 300 0 with progress := 19, err := 4 })
    (fun t => statusWord t == 0x44 && t.kcnt == 300 && t.progress == 19) = true := by decide
theorem test_abort_idle : exec .abort (st 1 2 0) = .next (st 1 2 0) := rfl
theorem test_srst : exec .srst { scanAt 0 512 0 with err := 4, ie := 7, key := 0x282 }
    = .next State.reset := rfl

/-! ### Host accesses and trials -/

theorem test_illegal_word_while_locked_out : after (memWrite 0x0004 0x12 (st 0 0 1))
    (fun t => t.err == 0b0011) = true := by decide
theorem test_wide_key_refused : after (memWrite 0x0010 0x400 (st 0x3FF 0 0))
    (fun t => t.err == 1 && t.key == 0x3FF) = true := by decide
theorem test_spt_busy_before_width : after (memWrite 0x0024 0x100 (scanOf 0))
    (fun t => t.err == 0b0100) = true := by decide
theorem test_misaligned_read : memRead 0x0012 (st 0x282 0 0) = (0, st 0x282 0 8) := by decide
theorem test_match_hidden : (memRead 0x1004 (scanAt 0 5 1)).1 = 0 := by decide
theorem test_trial_0_matches : after (scannerTurn (scanOf 0xF0))
    (fun t => t.kcnt == 1 && t.mcount == 1 && t.matchMem == [(0, 0)] && t.ip == 2
      && (memRead 0x1000 t).1 == 0x80000000) = true := by decide +kernel
theorem test_trial_200_reports_19 : after (scannerTurn (scanAt 0xF0 200 0))
    (fun t => t.progress == 19 && t.kcnt == 201) = true := by decide +kernel
theorem test_trial_1023_completes : after (scannerTurn (scanAt 0xF0 1023 0))
    (fun t => t.progress == 100 && t.ip == 3 && t.kcnt == 1024 && statusWord t == 2) = true := by
  decide +kernel

/-! ### The host's programs -/

/-- What a program answered, if it ran to its end. -/
def answer {α : Type} (o : Host.Outcome (State × α) Fault Refusal) : Option α :=
  match o with
  | .next r => some r.2
  | .fault _ => none
  | .refused _ => none

theorem test_encryptBlock :
    answer (runProgram (fun _ => 0) (encryptBlock 0xA5 0x282) State.reset) = some (.ok 0xCA) := by
  decide +kernel
theorem test_encryptBlock_fails :
    answer (runProgram (fun _ => 0) (encryptBlock 0xA5 0x282) (st 0 0 0b1010))
      = some (.error (.hardware 0b1010)) := by decide +kernel
theorem test_poll_last_key :
    answer (runProgram (fun _ => 1) (pollSearch .polling 1 [87]) (scanAt 0xF0 1023 0))
      = some (.ok (.found [87, 100] [])) := by decide +kernel
theorem test_wide_operand_fails :
    answer (runProgram (fun _ => 0) (blockCall .enc 1 0x1A5 0x282) State.reset)
      = some (.error .widthMismatch) := by decide +kernel
/-- IE.DONE set: quiet until the last trial, then served. -/
theorem test_wait_for_irq :
    answer (runProgram (fun n => n) (pollSearch .interrupt 2 []) { scanAt 0xF0 1023 0 with ie := 1 })
      = some (.ok (.found [100] [])) := by decide +kernel
theorem test_codec_hi : answer (runProgram (fun _ => 0) (textCall .enc ['H', 'i'] 0x282) State.reset)
    = some (.ok ['à', 'Ç']) := by decide +kernel

/-! ### The host's interface -/

theorem test_withFetchWord : step ((st 0x282 0xA5 0).withFetchWord 32 0x00000005)
    = exec .abort { st 0x282 0xA5 0 with response := .written } := rfl

/-! ### Witnesses: a state and operands that meet a statement's hypotheses -/

/-- DecodeAndEncodeAgree. -/
theorem witness_decode : Instr.enc.wf = true ∧ decode 0x00000002 = .command .enc := by decide

/-- IllegalWordsRaiseIllcmdOnly: each disjunct, at its boundary. -/
theorem witness_illegal : (0x00000010#32).extractLsb' 4 28 ≠ 0
    ∧ 7 ≤ ((0x00000007#32).extractLsb' 0 4).toNat := by decide

/-- StepRunsTheDecodedCommand and PlacedWordRunsNext. -/
theorem witness_step_runs : ({ State.reset with schedule := [.write 0x0004 2] } : State).schedule
      = .write 0x0004 2 :: [] ∧ decode 2 = .command .enc ∧ Instr.enc.wf = true
    ∧ 2 < 2 ^ 32 ∧ decodeTableWord 32 2 = some .enc := by decide

/-- StepTakesTheNextEvent: each clause. -/
theorem witness_step_events :
    ({ State.reset with schedule := [.read 0x0041] } : State).schedule = .read 0x0041 :: []
    ∧ ({ State.reset with schedule := [.write 0x0041 5] } : State).schedule = .write 0x0041 5 :: []
    ∧ ({ State.reset with schedule := [.reset] } : State).schedule = .reset :: []
    ∧ ({ scanOf 0 with schedule := [.trial] } : State).schedule = .trial :: []
    ∧ ({ scanOf 0 with schedule := [.trial] } : State).sbusy = true
    ∧ ({ State.reset with schedule := [.trial] } : State).schedule = .trial :: []
    ∧ ({ State.reset with schedule := [.trial] } : State).sbusy = false
    ∧ (scanOf 0).schedule = [] ∧ (scanOf 0).sbusy = true
    ∧ State.reset.schedule = [] ∧ State.reset.sbusy = false := by decide

/-- The command statements and those of the host's programs: ERR = 0 and not, a scan running and not (Keygen,
Enc, Dec, SearchStarts, Abort, LockOut, HostSequences, FailedCalls, RegistersRoundTrip, CodecLoop; their
`turnsSafe` is met by `witness_turns`). -/
theorem witness_commands : (st 0x282 0xA5 0).err = 0 ∧ (st 0x282 0xA5 1).err ≠ 0
    ∧ (st 0x282 0xA5 0).sbusy = false ∧ (scanOf 0).err = 0 ∧ (scanOf 0).sbusy = true
    ∧ (st 0x282 0xA5 0).cfg.tables.ip.undoes (st 0x282 0xA5 0).cfg.tables.ipinv = true := by
  decide +kernel

/-- SearchWhileBusyRaisesBusy. -/
theorem witness_search_busy : (scanOf 0).err = 0 ∧ (scanOf 0).sbusy = true := by decide

/-- CommandsChangeOnlyTheirWords: every command answers a next state, and an offset outside its words. -/
theorem witness_commands_next :
    (∀ i : Instr, ∃ t, exec i (st 0x282 0xA5 0) = .next t)
    ∧ (0x0010 : Offset) ∉ [0x0008, 0x001C, 0x0020] ∧ (0x0010 : Offset) ∉ [0x0008, 0x0018, 0x001C, 0x0020]
    ∧ (0x0010 : Offset).toNat < 0x1000 ∧ (0x0010 : Offset) ∉ [0x0008, 0x000C, 0x002C, 0x0030, 0x0034]
    ∧ (0x0010 : Offset) ≠ 0x0008 :=
  ⟨fun i => (exec_spec i _).imp fun _ h => h.1, by decide, by decide, by decide, by decide, by decide⟩

/-- MemReadReturnsTheFields: the first and the last MATCH entry; VisibleMatches: an index at MCOUNT. -/
theorem witness_match_index : 0 < 1024 ∧ 1023 < 1024 ∧ (scanAt 0 5 1).mcount.toNat ≤ 1 := by decide

/-- BadOffsetsRaiseAccessOnly: each disjunct, at its boundaries. -/
theorem witness_bad_offsets : (0x0001 : Offset).extractLsb' 0 2 ≠ 0 ∧ (0x1FFF : Offset).extractLsb' 0 2 ≠ 0
    ∧ 0x0040 ≤ (0x0040 : Offset).toNat ∧ (0x0FFF : Offset).toNat ≤ 0x0FFF := by decide

/-- ReadOnlyWritesRaiseAccessOnly and the first clause of MemWriteActsByOffset. -/
theorem witness_read_only : (0x0034 : Offset) ∈ ([0x0000, 0x0008, 0x0018, 0x001C, 0x0020, 0x002C, 0x0030,
      0x0034] : List Offset)
    ∧ (0x1000 : Offset).toNat = 0x1000 + 4 * 0 ∧ (0x1FFC : Offset).toNat = 0x1000 + 4 * 1023 := by decide

/-- MemWriteActsByOffset: the other clauses, at the boundaries of the widths. -/
theorem witness_writes : decode 6 = .command .srst ∧ decode 7 = .illegal .undefinedOp
    ∧ (0x3FF#32).toNat < 2 ^ 10 ∧ 2 ^ 10 ≤ (0x400#32).toNat
    ∧ (0xFF#32).toNat < 2 ^ 8 ∧ 2 ^ 8 ≤ (0x100#32).toNat
    ∧ (scanOf 0).sbusy = true ∧ State.reset.sbusy = false := by decide

/-- ErrorsArePrecise: a write and a read that raise. -/
theorem witness_precise :
    memWrite 0x0008 0 State.reset = .next (st 0 0 8) ∧ (memRead 0x0041 State.reset).2 = st 0 0 8
    ∧ State.reset.err.getLsbD 3 = false ∧ (st 0 0 8).err.getLsbD 3 = true := ⟨rfl, rfl, rfl, rfl⟩

/-- ErrBitsAreSticky: a step that clears ERR.WIDTH. -/
theorem witness_sticky :
    step { st 0 0 1 with schedule := [.write 0x000C 1] } = .next { st 0 0 0 with response := .written }
    ∧ (st 0 0 1).err.getLsbD 0 = true ∧ (st 0 0 0).err.getLsbD 0 = false := ⟨rfl, rfl, rfl⟩

/-- AcknowledgingEndsTheLockOut. -/
theorem witness_acknowledge : (st 0 0 0b1010).err &&& ~~~ (0x0000000A#32).setWidth 4 = 0 := by decide

/-- PendingBitsRiseOnlyInTrials: the trial of key 1023 raises both bits, the trial of key 0 one, and a host
write clears one. -/
theorem witness_pending :
    after (step (scanAt 0xF0 1023 0)) (fun t => (scanAt 0xF0 1023 0).ip == 0 && t.ip == 3) = true
    ∧ after (step (scanOf 0)) (fun t => (scanOf 0).ip == 0 && t.ip == 2) = true
    ∧ after (step { State.reset with ip := 3, schedule := [.write 0x003C 1] }) (fun t => t.ip == 2) = true := by
  decide +kernel

/-- PermuteFollowsItsTable: the last position; RotateLeftIsCircular: a width and a position. -/
theorem witness_positions : 1 ≤ 8 ∧ 8 - 1 < 8 ∧ 0 < 5 ∧ 1 ≤ 5 ∧ 5 ≤ 5 ∧ 4 < 5 ∧ 0 < 6 % 5 ∧ 10 % 5 = 0 := by decide

/-- SboxLookupRowAndColumn: input 1101 has row 3 and column 2. -/
theorem witness_sbox : (3 : Fin 4).val = 2 * ((0b1101#4).getLsbD 3).toNat + ((0b1101#4).getLsbD 0).toNat
    ∧ (2 : Fin 4).val = 2 * ((0b1101#4).getLsbD 2).toNat + ((0b1101#4).getLsbD 1).toNat := by decide

/-- RoundFunctionTables, the last clause: R158's pair (0, 0x00) and (0xF, 0xFF). -/
theorem witness_round : permute 0x0#4 defaultTables.ep ^^^ 0x00#8 = permute 0xF#4 defaultTables.ep ^^^ 0xFF#8 := by
  decide +kernel

/-- SubkeyBitsAreKeyBits, the two clauses' last entry. -/
theorem witness_subkey_bit : 7 < 8 := by decide

/-- DecryptUndoesEncrypt, EncryptIsABijection, TextRoundTrip: tables and a text that meet the hypotheses. -/
theorem witness_tables : defaultTables.ip.undoes defaultTables.ipinv = true
    ∧ ∀ c ∈ ['H', 'i', 'ÿ'], c.toNat ≤ 255 := ⟨by decide +kernel, by simp⟩

/-- DriverRejectsBadStrings: a character above 255, a wrong length, a wrong symbol, a key of a wrong length
beside a good block, and the reverse. -/
theorem witness_bad_strings : (∃ c ∈ ['H', 'Ā'], 255 < c.toNat) ∧ ['1', '0', '1'].length ≠ 8
    ∧ ['1', '2'].length = 2 ∧ (∃ c ∈ ['1', '2'], c ≠ '0' ∧ c ≠ '1')
    ∧ parseBits 10 ['1'] = .error .widthMismatch ∧ parseBits 8 ['1'] = .error .widthMismatch
    ∧ parseBits 8 ['1', '0', '1', '0', '0', '1', '0', '1'] = .ok 0xA5#8 :=
  ⟨⟨'Ā', by simp, by decide⟩, by decide, by decide, ⟨'2', by simp, by decide, by decide⟩, rfl, rfl,
    by decide⟩

/-- WideOperandLocksOutEnc, WideOperandsReportWidthMismatch: the boundary of each width. -/
theorem witness_wide : 2 ^ 8 ≤ (0x00000100#32).toNat ∧ 2 ^ 10 ≤ (0x00000400#32).toNat
    ∧ State.reset.err = 0 ∧ State.reset.sbusy = false := by decide

/-- TrialTestsOneKey: a matching and a missing trial, and the last key. -/
theorem witness_trial : (scanOf 0xF0).sbusy = true ∧ (scanOf 0xF0).kcnt.toNat ≤ 1023
    ∧ (scanOf 0xF0).mcount.toNat ≤ 1023 ∧ (scanAt 0xF0 1023 1023).kcnt.toNat ≤ 1023
    ∧ (scanAt 0xF0 1023 1023).mcount.toNat ≤ 1023
    ∧ encrypt (scanOf 0xF0).cfg.tables 0 (BitVec.ofNat 10 0) = (scanOf 0xF0).sct
    ∧ encrypt (scanOf 0x11).cfg.tables 0 (BitVec.ofNat 10 0) ≠ (scanOf 0x11).sct := by decide +kernel

/-- ProgressReportsOfAScan: the trials of the first and the last key that report and of one that does not;
the last clause. -/
theorem witness_progress : (scanOf 0x11).sbusy = true
    ∧ (scanOf 0x11).cfg.progInterval = defaultConfig.progInterval
    ∧ (∃ t, scannerTurn (scanAt 0x11 0 0) = .next t) ∧ (scanAt 0x11 0 0).kcnt.toNat = 0
    ∧ (∃ t, scannerTurn (scanAt 0x11 1023 0) = .next t) ∧ (scanAt 0x11 1023 0).kcnt.toNat = 1023
    ∧ (∃ t, scannerTurn (scanAt 0x11 1 0) = .next t)
    ∧ (scanAt 0x11 1 0).kcnt.toNat ∉ [0, 100, 200, 300, 400, 500, 600, 700, 800, 900, 1000, 1023]
    ∧ 1023 < 1024 :=
  ⟨rfl, rfl, scannerTurn_next fun _ => by decide, rfl, scannerTurn_next fun _ => by decide, rfl,
    scannerTurn_next fun _ => by decide, by decide, by decide⟩

/-- OnlyOutOfRangeTrialsFault: both reasons. -/
theorem witness_faults : (step (scanAt 0 1024 0) = .fault .keyOutOfRange)
    ∧ after (step (scanAt 0xF0 0 1024)) (fun _ => true) = false := by
  refine ⟨rfl, by decide +kernel⟩

/-- EngineAndScannerAreIndependent: two states that agree on one side and differ on the other. -/
theorem witness_independent : sameScanner State.reset (st 0x282 0xA5 0) ∧ sameEngine State.reset (scanOf 0xF0)
    ∧ State.reset.cfg = (st 0x282 0xA5 0).cfg ∧ State.reset.cfg = (scanOf 0xF0).cfg
    ∧ State.reset.err = 0 ∧ (scanOf 0xF0).err = 0
    ∧ (∃ t, exec .enc State.reset = .next t) ∧ (∃ t, memWrite 0x0010 5 State.reset = .next t)
    ∧ (∃ t, memWrite 0x0014 5 State.reset = .next t)
    ∧ (∃ t, scannerTurn (scanOf 0xF0) = .next t) := by
  refine ⟨⟨rfl, rfl, rfl, rfl, rfl, rfl, rfl, rfl, rfl⟩, ⟨rfl, rfl, rfl, rfl, rfl, rfl, rfl⟩, rfl, rfl, rfl,
    rfl, ⟨_, rfl⟩, ⟨_, rfl⟩, ⟨_, rfl⟩, scannerTurn_next fun _ => ⟨by decide, by decide⟩⟩

/-- ResetReadsAsZero: each of the three ways to be reset. -/
theorem witness_reset : exec .srst State.reset = .next State.reset
    ∧ runEvent .reset State.reset = .next State.reset := ⟨rfl, rfl⟩

/-- ConfigurationNeverChanges. -/
theorem witness_configuration : step State.reset = .next State.reset := rfl

/-! ### Witnesses with the invariant -/

/-- A state whose engine part is that of reset meets the engine's invariant. -/
theorem engine_of_reset {s : State} (hk : s.kvalid = false) (hl : s.lastop = 0) : EngineInv s :=
  ⟨by simp [hk], by simp [hl], by simp [hl], by simp [hl], by simp [hl]⟩

theorem reset_inv : StateInv State.reset :=
  ⟨by decide +kernel, engine_of_reset rfl rfl, by constructor <;> decide,
    ⟨rfl, by decide, 0, 0, rfl, by decide⟩⟩

/-- The invariant does not speak of the events to come. -/
theorem inv_of_schedule {s : State} (h : StateInv s) (es : List Event) : StateInv { s with schedule := es } :=
  ⟨h.cfg, ⟨h.engine.1, h.engine.2, h.engine.3, h.engine.4, h.engine.5⟩,
    ⟨h.scan.1, h.scan.2, h.scan.3, h.scan.4, h.scan.5, h.scan.6, h.scan.7, h.scan.8, h.scan.9, h.scan.10⟩,
    ⟨h.results.1, h.results.2, h.results.3⟩⟩

/-- SEARCH next, then SEARCH again and a trial. -/
def searchNext : State := { State.reset with schedule := [.write 0x0004 4, .write 0x0004 4, .trial] }

/-- EverySearchCompletes, with SEARCH among the later events, and its second clause. -/
theorem witness_search_completes : StateInv searchNext ∧ searchNext.err = 0 ∧ searchNext.sbusy = false
    ∧ searchNext.schedule = .write 0x0004 0x00000004 :: [.write 0x0004 4, .trial]
    ∧ (∀ e ∈ [Event.write 0x0004 4, Event.trial], endsNoScan e = true)
    ∧ (∀ e ∈ [Event.read 0x0008, Event.write 0x0004 2, Event.trial], leavesScan e = true)
    ∧ [Event.write 0x0004 4, Event.trial].length + 1025 ≤ 1027 :=
  ⟨inv_of_schedule reset_inv _, rfl, rfl, rfl, by decide, by decide, by decide⟩

/-- Every statement with `turnsSafe`, and BruteForceReturnsSearchKeys: scanner turns before each access, from a
state with the invariant, and no turns, from any state; a state with IE.DONE set. -/
theorem witness_turns : turnsSafe (fun _ => 1) State.reset ∧ turnsSafe (fun _ => 0) (st 0 0 1)
    ∧ StateInv State.reset ∧ State.reset.err = 0 ∧ State.reset.sbusy = false
    ∧ (∀ n : Nat, 1 ≤ (fun _ : Nat => 1) n) ∧ 1024 ≤ 1024
    ∧ StateInv { State.reset with ie := 1 } ∧ (1#3).getLsbD 0 = true :=
  ⟨.inl reset_inv, .inr fun _ => rfl, reset_inv, rfl, rfl, fun _ => Nat.le_refl 1, by decide,
    ⟨test_wf_default, engine_of_reset rfl rfl, by constructor <;> decide,
      ⟨rfl, by decide, 0, 0, rfl, by decide⟩⟩, by decide⟩

/-- AScanTakes1024Trials, EveryStepKeepsTheInvariant, InvariantStatesNeverStop, ProgressNeverFalls: a scan
just started, whose next step is a trial. -/
theorem witness_scan : StateInv (scanOf 0xF0) ∧ (scanOf 0xF0).sbusy = true ∧ (scanOf 0xF0).kcnt = 0
    ∧ (scanOf 0xF0).schedule = [] ∧ 1024 ≤ 1024 ∧ (∃ t, step (scanOf 0xF0) = .next t)
    ∧ ∀ e rest, (scanOf 0xF0).schedule = e :: rest → keepsResults e = true :=
  ⟨⟨by decide +kernel, engine_of_reset rfl rfl, by constructor <;> decide,
    ⟨rfl, by decide, 0, 0xF0, rfl, by decide⟩⟩, rfl, rfl, rfl, by decide,
    scannerTurn_next (s := scanOf 0xF0) fun _ => ⟨by decide, by decide⟩, fun _ _ h => nomatch h⟩

/-- The scan of (0, 0xF0) after the trials of keys 0 to 37, which found keys 0 and 0x025 (R211 (c)). -/
def scanned38 : State := { scanAt 0xF0 38 2 with matchMem := [(0, 0x000), (1, 0x025)] }

theorem scanned38_result : matchList scanned38 = matchesBelow defaultTables 0 0xF0 38 := by decide +kernel

theorem scanned38_inv : StateInv scanned38 :=
  ⟨test_wf_default, engine_of_reset rfl rfl, by constructor <;> decide,
    ⟨by decide, by decide, 0, 0xF0, scanned38_result, by decide⟩⟩

/-- VisibleMatchesAreWrittenAndAscending: two visible entries. -/
theorem witness_visible : StateInv scanned38 ∧ 0 < 1 ∧ 1 < scanned38.mcount.toNat
    ∧ scanned38.mcount.toNat ≤ 2 := ⟨scanned38_inv, by decide, by decide, by decide⟩

/-- That scan aborted, and then SPT rewritten. -/
def aborted38 : State := { scanned38 with sbusy := false, sabort := true, response := .written }
def rewritten38 : State := { aborted38 with spt := 1 }

theorem aborted38_inv : StateInv aborted38 :=
  ⟨test_wf_default, engine_of_reset rfl rfl, by constructor <;> decide,
    ⟨by decide, by decide, 0, 0xF0, scanned38_result, by decide⟩⟩

theorem rewritten38_inv : StateInv rewritten38 :=
  ⟨test_wf_default, engine_of_reset rfl rfl, by constructor <;> decide,
    ⟨by decide, by decide, 0, 0xF0, scanned38_result, by decide⟩⟩

/-- EveryStepKeepsThePairInvariant: a step that aborts a scan, and one that rewrites SPT after it; both
histories. -/
theorem witness_pair : PairInv false { scanned38 with schedule := [.write 0x0004 5] }
    ∧ step { scanned38 with schedule := [.write 0x0004 5] } = .next aborted38
    ∧ PairInv false { aborted38 with schedule := [.write 0x0024 1] }
    ∧ step { aborted38 with schedule := [.write 0x0024 1] } = .next rewritten38
    ∧ pairWritten false { aborted38 with schedule := [.write 0x0024 1] } = true
    ∧ PairInv true rewritten38 ∧ ∃ t, step rewritten38 = .next t :=
  ⟨⟨inv_of_schedule scanned38_inv _, fun _ => scanned38_result,
    fun _ => rfl⟩, rfl,
    ⟨inv_of_schedule aborted38_inv _, fun _ => scanned38_result,
    by decide⟩, rfl, by decide, ⟨rewritten38_inv, by decide, by decide⟩, _, rfl⟩

/-- UnwrittenPairKeepsItsResults: a run that aborts a scan. Its clause on a completed scan is met by
`witness_completed`. -/
theorem witness_unwritten : PairInv false { scanned38 with schedule := [.write 0x0004 5] }
    ∧ (∀ e ∈ [Event.write 0x0004 5], writesPair e = false)
    ∧ Sys2Proof.core.run 1 { scanned38 with schedule := [.write 0x0004 5] } = .next aborted38 :=
  ⟨witness_pair.1, by decide, rfl⟩

/-- A configuration whose S-boxes are zero everywhere (R48 allows them), so that F is zero and the
ciphertext does not depend on the key. -/
def quiet : Config := withTables { defaultTables with
  sbox1 := Vector.replicate 4 (Vector.replicate 4 0), sbox2 := Vector.replicate 4 (Vector.replicate 4 0) }

theorem quiet_encrypt (k : Key) : encrypt quiet.tables 0 k = 0 := by
  have zero : ∀ n : Half, sboxLookup n (Vector.replicate 4 (Vector.replicate 4 0)) = 0 := by
    decide +kernel
  have f (r : Half) (sk : Block) : roundF quiet.tables r sk = 0 := by
    change permute (sboxLookup _ (Vector.replicate 4 (Vector.replicate 4 0))
      ++ sboxLookup _ (Vector.replicate 4 (Vector.replicate 4 0))) tableP4 = 0
    rw [zero, zero]
    decide +kernel
  have c (ka kb : Block) : crypt quiet.tables 0 ka kb = 0 := by
    simp only [crypt, cryptStages, f]
    decide +kernel
  exact c _ _

/-- A scan for a ciphertext that no key gives, before its last trial. -/
def lastTrial : State := { scanAt 0xFF 1023 0 with cfg := quiet }

theorem lastTrial_result : matchList lastTrial = matchesBelow quiet.tables 0 0xFF 1023 := by
  refine Eq.trans (b := []) rfl (Eq.symm (List.filter_eq_nil_iff.2 fun k _ => ?_))
  rw [quiet_encrypt]
  decide

/-- CompletedScanIsSearchKeys, and the last clause of UnwrittenPairKeepsItsResults: the trial of key 1023 under
the invariants. -/
theorem witness_completed : StateInv lastTrial ∧ PairInv false lastTrial ∧ lastTrial.sbusy = true
    ∧ (∀ e ∈ lastTrial.schedule, writesPair e = false)
    ∧ after (scannerTurn lastTrial) (fun t => t.sdone) = true
    ∧ after (step lastTrial) (fun t => t.sdone) = true := by
  have h : StateInv lastTrial := ⟨by decide +kernel, engine_of_reset rfl rfl, by constructor <;> decide,
    ⟨rfl, by decide, 0, 0xFF, lastTrial_result, by decide⟩⟩
  exact ⟨h, ⟨h, fun _ => lastTrial_result, fun _ => rfl⟩, rfl, by decide, by decide +kernel,
    by decide +kernel⟩

end Sys2Proof.Tests
end

section
/-! PROOFS. What a step is for each kind of next event, and that every step keeps the invariant of R50
(spec/00_scope.md rules R15, R86; spec/10_state.md rules R36, R50). -/

namespace Sys2Proof.Machine

/-! ### The step, by the next event -/

/-- A step with something scheduled is the first event of the schedule (R15). -/
theorem step_of_schedule_cons {s : State} {e : Event} {rest : List Event} (h : s.schedule = e :: rest) :
    step s = runEvent e { s with schedule := rest, response := .none } := by
  unfold step nextMove
  rw [h]

/-- A step with nothing scheduled is the scanner's turn (log entry 3). -/
theorem step_of_schedule_nil {s : State} (h : s.schedule = []) :
    step s = scannerTurn { s with response := .none } := by
  unfold step nextMove
  rw [h]

/-- A scanner step is enabled exactly while a scan runs (R196). -/
theorem scannerTurn_of_busy {s : State} (h : s.sbusy = true) : scannerTurn s = trial s := if_pos h

theorem scannerTurn_of_idle {s : State} (h : s.sbusy = false) : scannerTurn s = .next s :=
  if_neg (by simp [h])

/-- A word of a command written to CMD runs the command (R36, R101). -/
theorem runCommand_of_decode {v : Word} {i : Instr} (h : decode v = .command i) (s : State) :
    runCommand v s = exec i s := by
  unfold runCommand
  rw [h]

/-- The word a read returns depends neither on the events to come nor on the port's last answer. -/
theorem memRead_word_of_port (off : Offset) (s : State) (es : List Event) (r : Response) :
    (memRead off { s with schedule := es, response := r }).1 = (memRead off s).1 := by
  unfold memRead
  cases targetOf off with
  | reg q => cases q <;> rfl
  | matchEntry i => rfl
  | unmapped => rfl
  | misaligned => rfl

/-! ### Frames of the invariant -/

theorem sameEngine_refl (s : State) : sameEngine s s := ⟨rfl, rfl, rfl, rfl, rfl, rfl, rfl⟩

theorem sameScanner_refl (s : State) : sameScanner s s :=
  ⟨rfl, rfl, rfl, rfl, rfl, rfl, rfl, rfl, rfl⟩

/-- The result sequence is a function of MATCH and MCOUNT (R29, R37). -/
theorem matchList_congr {s t : State} (hm : t.matchMem = s.matchMem) (hc : t.mcount = s.mcount) :
    matchList t = matchList s := by
  have hcell : matchCell t = matchCell s := funext fun i => by simp only [matchCell, hm]
  rw [matchList, hcell, hc, matchList]

/-- The engine's invariant speaks of the engine's part and of the tables only. -/
theorem EngineInv.frame {s t : State} (h : EngineInv s) (hcfg : t.cfg = s.cfg) (he : sameEngine s t) :
    EngineInv t := by
  obtain ⟨hkey, hdin, hdout, hk1, hk2, hkvalid, hlastop⟩ := he
  constructor <;> simp only [hcfg, hkey, hdin, hdout, hk1, hk2, hkvalid, hlastop]
  case subkeys => exact h.subkeys
  case encrypted => exact h.encrypted
  case decrypted => exact h.decrypted
  case lastop_legal => exact h.lastop_legal
  case lastop_kvalid => exact h.lastop_kvalid

/-- The scanner's invariant speaks of the scanner's part only. -/
theorem ScanInv.frame {s t : State} (h : ScanInv s) (hs : sameScanner s t) : ScanInv t := by
  obtain ⟨-, -, hkcnt, hmcount, hprogress, hsbusy, hsdone, hsabort, -⟩ := hs
  constructor <;> simp only [hkcnt, hmcount, hprogress, hsbusy, hsdone, hsabort]
  case busy_not_done => exact h.busy_not_done
  case busy_not_aborted => exact h.busy_not_aborted
  case done_not_aborted => exact h.done_not_aborted
  case busy_kcnt => exact h.busy_kcnt
  case done_kcnt => exact h.done_kcnt
  case mcount_le => exact h.mcount_le
  case kcnt_le => exact h.kcnt_le
  case progress_le => exact h.progress_le
  case progress_kcnt => exact h.progress_kcnt
  case progress_done => exact h.progress_done

/-- The result memory's invariant is kept where MATCH, its counters and the tables are, so long as a scan that
runs has the pair it ran with. -/
theorem MatchInv.frame {s t : State} (h : MatchInv s) (hcfg : t.cfg = s.cfg)
    (hmem : t.matchMem = s.matchMem) (hmcount : t.mcount = s.mcount) (hkcnt : t.kcnt = s.kcnt)
    (hpair : t.sbusy = true → s.sbusy = true ∧ t.spt = s.spt ∧ t.sct = s.sct) : MatchInv t := by
  obtain ⟨p, c, hlist, hrunning⟩ := h.result
  refine ⟨hmem ▸ h.wf, by rw [hmem, hmcount]; exact h.written, p, c, ?_, fun hb => ?_⟩
  · rw [matchList_congr hmem hmcount, hcfg, hkcnt, hlist]
  · obtain ⟨hbefore, hspt, hsct⟩ := hpair hb
    rw [hspt, hsct]
    exact hrunning hbefore

/-- A change of the engine's part alone keeps the invariant if it keeps the engine's. -/
theorem StateInv.of_sameScanner {s t : State} (h : StateInv s) (hcfg : t.cfg = s.cfg)
    (hs : sameScanner s t) (he : EngineInv t) : StateInv t := by
  refine ⟨hcfg ▸ h.cfg, he, h.scan.frame hs, ?_⟩
  obtain ⟨hspt, hsct, hkcnt, hmcount, -, hsbusy, -, -, hmem⟩ := hs
  exact h.results.frame hcfg hmem hmcount hkcnt fun hb => ⟨hsbusy ▸ hb, hspt, hsct⟩

/-- The invariant says nothing of ERR, IE, IP, the events to come and the port's answer. -/
theorem StateInv.frame {s t : State} (h : StateInv s) (hcfg : t.cfg = s.cfg) (he : sameEngine s t)
    (hs : sameScanner s t) : StateInv t :=
  h.of_sameScanner hcfg hs (h.engine.frame hcfg he)

/-- A change of SPT or SCT while no scan runs keeps the invariant (R27). -/
theorem StateInv.withPair {s : State} (h : StateInv s) (hb : s.sbusy = false) (p c : Block) :
    StateInv { s with spt := p, sct := c } where
  cfg := h.cfg
  engine := h.engine.frame rfl (sameEngine_refl s)
  scan := ⟨h.scan.busy_not_done, h.scan.busy_not_aborted, h.scan.done_not_aborted, h.scan.busy_kcnt,
    h.scan.done_kcnt, h.scan.mcount_le, h.scan.kcnt_le, h.scan.progress_le, h.scan.progress_kcnt,
    h.scan.progress_done⟩
  results := h.results.frame rfl rfl rfl rfl fun hrun => absurd (hb.symm.trans hrun) (by decide)

/-! ### The engine -/

/-- With LASTOP = 0 only the subkeys are promised (R50 item 2). -/
theorem engineInv_of_lastop_zero {s : State} (hl : s.lastop = 0)
    (hk : s.kvalid = true → (s.k1, s.k2) = keySchedule s.cfg.tables s.key) : EngineInv s where
  subkeys := hk
  encrypted h := by simp [hl] at h
  decrypted h := by simp [hl] at h
  lastop_legal h := by simp [hl] at h
  lastop_kvalid h := absurd hl h

/-- KEYGEN keeps the engine's invariant: KEY, DIN and DOUT are as they were (R146). -/
theorem EngineInv.keygen {s : State} (h : EngineInv s) : EngineInv (deriveSubkeys s) where
  subkeys _ := rfl
  encrypted := h.encrypted
  decrypted := h.decrypted
  lastop_legal := h.lastop_legal
  lastop_kvalid _ := rfl

/-- ENC establishes the engine's invariant (R171). -/
theorem engineInv_encEffect (s : State) : EngineInv (encEffect s) where
  subkeys _ := rfl
  encrypted _ := rfl
  decrypted h := by simp at h
  lastop_legal := by simp
  lastop_kvalid _ := rfl

/-- DEC establishes the engine's invariant (R172). -/
theorem engineInv_decEffect (s : State) : EngineInv (decEffect s) where
  subkeys _ := rfl
  encrypted h := by simp at h
  decrypted _ := rfl
  lastop_legal := by simp
  lastop_kvalid _ := rfl

/-! ### The scanner -/

/-- One more key tested: it joins the matches, at their end, if it matches (R194, R195). -/
theorem matchesBelow_succ (t : Tables) (p c : Block) (n : Nat) :
    matchesBelow t p c (n + 1)
      = matchesBelow t p c n
        ++ if encrypt t p (BitVec.ofNat 10 n) = c then [BitVec.ofNat 10 n] else [] := by
  simp [matchesBelow, List.range_succ, List.filter_cons]

/-- The trial key is KCNT as a key (R194). -/
theorem trialKey_eq (s : State) : trialKey s = BitVec.ofNat 10 s.kcnt.toNat := by
  apply BitVec.eq_of_toNat_eq
  simp [trialKey, BitVec.extractLsb'_toNat]

/-- The match predicate of R195 on the trial key's number. -/
theorem trialMatches_iff (s : State) :
    trialMatches s = true
      ↔ encrypt s.cfg.tables s.spt (BitVec.ofNat 10 s.kcnt.toNat) = s.sct := by
  simp [trialMatches, trialKey_eq]

/-- MCOUNT counts one more match; it does not wrap below MATCH's depth (R92, R197). -/
theorem appendMatch_mcount_toNat {s : State} (h : s.mcount.toNat < 1024) :
    (appendMatch s).mcount.toNat = s.mcount.toNat + 1 := by
  simp [BitVec.toNat_add]
  omega

/-- KCNT counts one more key tested; it does not wrap (R196). -/
theorem advanceScan_kcnt_toNat {s : State} (h : s.kcnt.toNat < 1024) :
    (advanceScan s).kcnt.toNat = s.kcnt.toNat + 1 := by
  simp [BitVec.toNat_add]
  omega

/-- A match is appended at the end of the result sequence (R197). -/
theorem matchList_appendMatch {s : State} (h : s.mcount.toNat < 1024) :
    matchList (appendMatch s) = matchList s ++ [trialKey s] := by
  have hold : ∀ i ∈ List.range s.mcount.toNat, matchCell (appendMatch s) i = matchCell s i := by
    intro i hi
    have hne : i ≠ s.mcount.toNat := Nat.ne_of_lt (List.mem_range.1 hi)
    simp only [matchCell, appendMatch_matchMem, matchRead_matchWrite_other _ _ hne]
  have hnew : matchCell (appendMatch s) s.mcount.toNat = trialKey s :=
    matchCell_of_read (by simp)
  simp only [matchList]
  rw [appendMatch_mcount_toNat h, List.range_succ, List.map_append, List.map_congr_left hold,
    List.map_singleton, hnew]

/-- A report by interval is the floor of R198, below 100. -/
theorem percentAt_toNat {k : Nat} (h : k < 1024) : (percentAt k).toNat = k * 100 / 1024 := by
  simp only [percentAt, keyspace, BitVec.toNat_ofNat]
  omega

/-- The scanner's flags and counters after the advance of a scan neither done nor aborted, whose MCOUNT may
already count the key on trial (R196, R198, R199). -/
theorem scanInv_advanceScan {s : State} (hdone : s.sdone = false) (habort : s.sabort = false)
    (hk : s.kcnt.toNat ≤ 1023) (hm : s.mcount.toNat ≤ s.kcnt.toNat + 1)
    (hp : s.progress.toNat ≤ s.kcnt.toNat * 100 / 1024) : ScanInv (advanceScan s) := by
  have hkcnt : (advanceScan s).kcnt.toNat = s.kcnt.toNat + 1 := advanceScan_kcnt_toNat (by omega)
  have hmcount : (advanceScan s).mcount.toNat ≤ (advanceScan s).kcnt.toNat := by
    rwa [hkcnt, advanceScan_mcount]
  have hnotAborted : (advanceScan s).sabort = false := (advanceScan_sabort s).trans habort
  by_cases hlast : s.kcnt.toNat = 1023
  · have hstopped : (advanceScan s).sbusy ≠ true := by simp [hlast]
    have hprogress : (advanceScan s).progress.toNat = 100 := by simp [hlast]
    exact
      { busy_not_done := fun hb => absurd hb hstopped
        busy_not_aborted := fun _ => hnotAborted
        done_not_aborted := fun _ => hnotAborted
        busy_kcnt := fun hb => absurd hb hstopped
        done_kcnt := fun _ => by omega
        mcount_le := hmcount
        kcnt_le := by omega
        progress_le := by omega
        progress_kcnt := fun hb => absurd hb hstopped
        progress_done := iff_of_true hprogress (by simp [hlast]) }
  · have hnotDone : (advanceScan s).sdone = false := by simp [hlast, hdone]
    have hprogress : (advanceScan s).progress.toNat ≤ s.kcnt.toNat * 100 / 1024 := by
      rw [advanceScan_progress, if_neg hlast]
      split
      · exact (percentAt_toNat (by omega)).le
      · exact hp
    exact
      { busy_not_done := fun _ => hnotDone
        busy_not_aborted := fun _ => hnotAborted
        done_not_aborted := fun _ => hnotAborted
        busy_kcnt := fun _ => by omega
        done_kcnt := fun hd => absurd (hnotDone.symm.trans hd) (by decide)
        mcount_le := hmcount
        kcnt_le := by omega
        progress_le := by omega
        progress_kcnt := fun _ => by omega
        progress_done := iff_of_false (by omega) (by rw [hnotDone]; decide) }

/-- The result memory's invariant after the advance, where the result sequence holds the matches among the
keys up to the one on trial. -/
theorem matchInv_advanceScan {s : State} (hk : s.kcnt.toNat < 1024) (hwf : matchWf s.matchMem = true)
    (hwritten : ∀ i < s.mcount.toNat, (matchRead s.matchMem i).isSome = true)
    (hlist : matchList s = matchesBelow s.cfg.tables s.spt s.sct (s.kcnt.toNat + 1)) :
    MatchInv (advanceScan s) where
  wf := by simpa using hwf
  written := by simpa using hwritten
  result := by
    refine ⟨s.spt, s.sct, ?_, fun _ => by simp⟩
    rw [matchList_congr (advanceScan_matchMem s) (advanceScan_mcount s), advanceScan_kcnt_toNat hk,
      advanceScan_cfg, hlist]

/-- After a match is appended every visible cell has been written. -/
theorem appendMatch_written {s : State} (h : s.mcount.toNat < 1024)
    (hwritten : ∀ i < s.mcount.toNat, (matchRead s.matchMem i).isSome = true) :
    ∀ i < (appendMatch s).mcount.toNat, (matchRead (appendMatch s).matchMem i).isSome = true := by
  intro i hi
  rw [appendMatch_mcount_toNat h] at hi
  by_cases hlast : i = s.mcount.toNat
  · simp [hlast]
  · rw [appendMatch_matchMem, matchRead_matchWrite_other _ _ hlast]
    exact hwritten i (by omega)

/-- While a scan runs, MATCH holds the matches of (SPT, SCT) among the keys tested (R50 item 7). -/
theorem MatchInv.matchList_of_busy {s : State} (h : MatchInv s) (hb : s.sbusy = true) :
    matchList s = matchesBelow s.cfg.tables s.spt s.sct s.kcnt.toNat := by
  obtain ⟨p, c, hlist, hpair⟩ := h.result
  obtain ⟨rfl, rfl⟩ := hpair hb
  exact hlist

/-- The scanner's turn keeps the invariant. -/
theorem TurnCase.keeps_inv {s t : State} (hc : TurnCase s t) (h : StateInv s) : StateInv t := by
  cases hc with
  | idle hb => exact h
  | missed hb hk hm =>
    refine ⟨by simpa using h.cfg, h.engine.frame (by simp) (by simp [sameEngine]), ?_, ?_⟩
    · exact scanInv_advanceScan (h.scan.busy_not_done hb) (h.scan.busy_not_aborted hb) (by omega)
        (Nat.le_succ_of_le h.scan.mcount_le) (h.scan.progress_kcnt hb)
    · have hmiss : encrypt s.cfg.tables s.spt (BitVec.ofNat 10 s.kcnt.toNat) ≠ s.sct := by
        rw [ne_eq, ← trialMatches_iff]
        simp [hm]
      refine matchInv_advanceScan hk h.results.wf h.results.written ?_
      rw [matchesBelow_succ, if_neg hmiss, List.append_nil, h.results.matchList_of_busy hb]
  | matched hb hk hm hcount =>
    refine ⟨by simpa using h.cfg, h.engine.frame (by simp) (by simp [sameEngine]), ?_, ?_⟩
    · refine scanInv_advanceScan (h.scan.busy_not_done hb) (h.scan.busy_not_aborted hb)
        (Nat.le_of_lt_succ hk) ?_ (h.scan.progress_kcnt hb)
      rw [appendMatch_mcount_toNat hcount]
      exact Nat.succ_le_succ h.scan.mcount_le
    · refine matchInv_advanceScan hk (matchWf_matchWrite _ h.results.wf hcount)
        (appendMatch_written hcount h.results.written) ?_
      calc matchList (appendMatch s)
          = matchesBelow s.cfg.tables s.spt s.sct s.kcnt.toNat ++ [BitVec.ofNat 10 s.kcnt.toNat] := by
            rw [matchList_appendMatch hcount, h.results.matchList_of_busy hb, trialKey_eq]
        _ = matchesBelow s.cfg.tables s.spt s.sct (s.kcnt.toNat + 1) := by
            rw [matchesBelow_succ, if_pos ((trialMatches_iff s).1 hm)]

/-! ### Commands -/

/-- The start of a scan keeps the invariant: nothing has been tested and nothing is visible (R192). -/
theorem StateInv.startScan {s : State} (h : StateInv s) : StateInv (startScan s) where
  cfg := h.cfg
  engine := h.engine.frame rfl (sameEngine_refl s)
  scan := by constructor <;> simp
  results :=
    { wf := h.results.wf
      written := by simp
      result := ⟨s.spt, s.sct, rfl, by simp⟩ }

/-- ABORT of a running scan keeps the invariant: the counters and the matches stay (R203). -/
theorem StateInv.abortScan {s : State} (h : StateInv s) (hb : s.sbusy = true) :
    StateInv { s with sbusy := false, sabort := true } where
  cfg := h.cfg
  engine := h.engine.frame rfl (sameEngine_refl s)
  scan :=
    { busy_not_done := by simp
      busy_not_aborted := by simp
      done_not_aborted := by simp [h.scan.busy_not_done hb]
      busy_kcnt := by simp
      done_kcnt := h.scan.done_kcnt
      mcount_le := h.scan.mcount_le
      kcnt_le := h.scan.kcnt_le
      progress_le := h.scan.progress_le
      progress_kcnt := by simp
      progress_done := h.scan.progress_done }
  results := h.results.frame rfl rfl rfl rfl (by simp)

/-- Reset and SRST establish the invariant, on whatever configuration the block has (R51, R260). -/
theorem stateInv_resetBlock {s : State} (h : s.cfg.wf = true) : StateInv (resetBlock s) where
  cfg := h
  engine := engineInv_of_lastop_zero rfl (by simp)
  scan := by constructor <;> simp
  results :=
    { wf := rfl
      written := by simp
      result := ⟨0, 0, rfl, by simp⟩ }

/-- Every command keeps the invariant. -/
theorem ExecCase.keeps_inv {s t : State} {i : Instr} (hc : ExecCase s i t) (h : StateInv s) :
    StateInv t := by
  cases hc with
  | nop => exact h
  | dropped hi he => exact h
  | keygen he => exact h.of_sameScanner rfl (sameScanner_refl s) h.engine.keygen
  | enc he => exact h.of_sameScanner rfl (sameScanner_refl s) (engineInv_encEffect s)
  | dec he => exact h.of_sameScanner rfl (sameScanner_refl s) (engineInv_decEffect s)
  | busy he hb => exact h.frame rfl (sameEngine_refl s) (sameScanner_refl s)
  | search he hb => exact h.startScan
  | abort hb => exact h.abortScan hb
  | abortIdle hb => exact h
  | srst => exact stateInv_resetBlock h.cfg

/-! ### Accesses, events and steps -/

/-- Every host write keeps the invariant. -/
theorem WriteCase.keeps_inv {s t : State} {off : Offset} {v : Word} (hc : WriteCase s off v t)
    (h : StateInv s) : StateInv t := by
  cases hc with
  | raised e => exact h.frame rfl (sameEngine_refl s) (sameScanner_refl s)
  | command ht i hd hc => exact hc.keeps_inv h
  | acknowledged ht => exact h.frame rfl (sameEngine_refl s) (sameScanner_refl s)
  | key ht =>
    exact h.of_sameScanner rfl (sameScanner_refl s) (engineInv_of_lastop_zero rfl (by simp))
  | din ht =>
    exact h.of_sameScanner rfl (sameScanner_refl s) (engineInv_of_lastop_zero rfl h.engine.subkeys)
  | spt ht hb => exact h.withPair hb _ _
  | sct ht hb => exact h.withPair hb _ _
  | ie ht => exact h.frame rfl (sameEngine_refl s) (sameScanner_refl s)
  | ip ht => exact h.frame rfl (sameEngine_refl s) (sameScanner_refl s)

/-- The invariant says nothing of the events to come and the port's answer. -/
theorem StateInv.withPort {s : State} (h : StateInv s) (es : List Event) (r : Response) :
    StateInv { s with schedule := es, response := r } :=
  h.frame rfl (sameEngine_refl s) (sameScanner_refl s)

/-- Every event keeps the invariant. -/
theorem EventCase.keeps_inv {s t : State} {e : Event} (hc : EventCase s e t) (h : StateInv s) :
    StateInv t := by
  cases hc with
  | read off w => exact h.withPort _ _
  | readBad off => exact h.frame rfl (sameEngine_refl s) (sameScanner_refl s)
  | write off v hc => exact hc.keeps_inv (h.withPort _ _)
  | reset => exact stateInv_resetBlock h.cfg
  | trial hc => exact hc.keeps_inv h

/-- Every step keeps the invariant (R50). -/
theorem StepCase.keeps_inv {s t : State} (hc : StepCase s t) (h : StateInv s) : StateInv t := by
  cases hc with
  | silent hs hc => exact hc.keeps_inv (h.withPort _ _)
  | event e rest hs hc => exact hc.keeps_inv (h.withPort _ _)

end Sys2Proof.Machine

namespace Sys2Proof.Proofs
open Sys2Proof Sys2Proof.Machine

/-- Settles O47: one lemma per case of what a step can do. -/
theorem everyStepKeepsTheInvariant : Obligations.EveryStepKeepsTheInvariant :=
  fun _ _ hinv hstep => (step_cases hstep).keeps_inv hinv

/-- Settles O4: the write event at CMD's offset is `runCommand`, which runs what the word decodes to. -/
theorem stepRunsTheDecodedCommand : Obligations.StepRunsTheDecodedCommand := by
  intro s rest v i hs hdecode _
  calc step s
      = runEvent (wr .cmd v) { s with schedule := rest, response := .none } := step_of_schedule_cons hs
    _ = runCommand v { s with schedule := rest, response := .written } := runEvent_wr .cmd v _
    _ = exec i { s with schedule := rest, response := .written } := runCommand_of_decode hdecode _

/-- Settles O6, one clause for each kind of next event. -/
theorem stepTakesTheNextEvent : Obligations.StepTakesTheNextEvent := by
  intro s rest off v
  refine ⟨fun hs => ?read, fun hs => ?write, fun hs => ?reset, fun hs hb => ?trialBusy,
    fun hs hb => ?trialIdle, fun hs hb => ?silentBusy, fun hs hb => ?silentIdle⟩
  case read =>
    have hword := memRead_word_of_port off s rest .none
    refine ⟨(memRead off { s with schedule := rest, response := .none }).2, Prod.ext hword rfl, ?_⟩
    rw [step_of_schedule_cons hs, ← hword]
    rfl
  case write => exact step_of_schedule_cons hs
  case reset => exact step_of_schedule_cons hs
  case trialBusy => exact (step_of_schedule_cons hs).trans (scannerTurn_of_busy hb)
  case trialIdle => exact (step_of_schedule_cons hs).trans (scannerTurn_of_idle hb)
  case silentBusy => exact (step_of_schedule_nil hs).trans (scannerTurn_of_busy hb)
  case silentIdle => exact (step_of_schedule_nil hs).trans (scannerTurn_of_idle hb)

end Sys2Proof.Proofs
end

section
/-! PROOFS. The configuration stays (spec/10_state.md rule R49). The invariant with the history of item 7 of R50
(spec/10_state.md rules R27, R50), and what it says of a run that writes neither SPT nor SCT (spec/45_key_search.md
rule R204). -/

namespace Sys2Proof.Machine

/-! ### What a step leaves of the configuration and of the events to come -/

theorem TurnCase.cfg_and_schedule {s t : State} (hc : TurnCase s t) :
    t.cfg = s.cfg ∧ t.schedule = s.schedule := by
  cases hc with
  | idle hb => exact ⟨rfl, rfl⟩
  | missed hb hk hm => simp
  | matched hb hk hm hcount => simp

theorem ExecCase.cfg_and_schedule {s t : State} {i : Instr} (hc : ExecCase s i t) :
    t.cfg = s.cfg ∧ t.schedule = s.schedule := by
  cases hc <;> exact ⟨rfl, rfl⟩

theorem WriteCase.cfg_and_schedule {s t : State} {off : Offset} {v : Word} (hc : WriteCase s off v t) :
    t.cfg = s.cfg ∧ t.schedule = s.schedule := by
  cases hc with
  | command ht i hd hc => exact hc.cfg_and_schedule
  | _ => exact ⟨rfl, rfl⟩

theorem EventCase.cfg_and_schedule {s t : State} {e : Event} (hc : EventCase s e t) :
    t.cfg = s.cfg ∧ t.schedule = s.schedule := by
  cases hc with
  | write off v hc => exact hc.cfg_and_schedule
  | trial hc => exact hc.cfg_and_schedule
  | _ => exact ⟨rfl, rfl⟩

/-- A step changes no configuration (R49) and takes the first event off the schedule (R15). -/
theorem StepCase.cfg_and_schedule {s t : State} (hc : StepCase s t) :
    t.cfg = s.cfg ∧ t.schedule = s.schedule.tail := by
  cases hc with
  | silent hs hc => rw [hs]; exact hc.cfg_and_schedule
  | event e rest hs hc => rw [hs]; exact hc.cfg_and_schedule

/-! ### The history of item 7, by the next event -/

/-- The history after a command: a SEARCH that executes begins a new one, and so does SRST (log entry 12). -/
def historyAfter (written : Bool) (s : State) : Instr → Bool
  | .search => written && (s.err != 0 || s.sbusy)
  | .srst => false
  | .nop | .keygen | .enc | .dec | .abort => written

theorem pairWritten_write_command {s : State} {off : Offset} {v : Word} {rest : List Event} {i : Instr}
    (written : Bool) (hs : s.schedule = .write off v :: rest) (ht : targetOf off = .reg .cmd)
    (hd : decode v = .command i) : pairWritten written s = historyAfter written s i := by
  unfold pairWritten
  rw [hs]
  dsimp only
  rw [ht, hd]
  cases written <;> cases i <;> rfl

/-- A write to CMD of a word that is no command leaves the history. -/
theorem pairWritten_write_illegal {s : State} {off : Offset} {v : Word} {rest : List Event} {x : DecodeError}
    (written : Bool) (hs : s.schedule = .write off v :: rest) (ht : targetOf off = .reg .cmd)
    (hd : decode v = .illegal x) : pairWritten written s = written := by
  unfold pairWritten
  rw [hs]
  dsimp only
  rw [ht, hd]
  cases written <;> cases x <;> rfl

/-- A command that the lock-out drops leaves the history (R238). -/
theorem historyAfter_locked {s : State} {i : Instr} (written : Bool) (he : s.err ≠ 0)
    (hi : i = .keygen ∨ i = .enc ∨ i = .dec ∨ i = .search) : historyAfter written s i = written := by
  have hlocked : (s.err != 0) = true := bne_iff_ne.2 he
  rcases hi with rfl | rfl | rfl | rfl
  · rfl
  · rfl
  · rfl
  · simp only [historyAfter, hlocked, Bool.true_or, Bool.and_true]

@[simp] theorem historyAfter_false (s : State) (i : Instr) : historyAfter false s i = false := by
  cases i <;> rfl

/-- A write to SPT or SCT: it counts if it is accepted. -/
theorem pairWritten_write_pair {s : State} {off : Offset} {v : Word} {rest : List Event} (written : Bool)
    (hs : s.schedule = .write off v :: rest) (ht : targetOf off = .reg .spt ∨ targetOf off = .reg .sct) :
    pairWritten written s = (written || (!s.sbusy && !tooWide 8 v)) := by
  unfold pairWritten
  rw [hs]
  rcases ht with ht | ht <;> simp only [ht]

/-- A write anywhere else leaves the history. -/
theorem pairWritten_write_other {s : State} {off : Offset} {v : Word} {rest : List Event} (written : Bool)
    (hs : s.schedule = .write off v :: rest) (hcmd : targetOf off ≠ .reg .cmd)
    (hspt : targetOf off ≠ .reg .spt) (hsct : targetOf off ≠ .reg .sct) : pairWritten written s = written := by
  unfold pairWritten
  rw [hs]
  dsimp only
  split
  · exact absurd ‹_› hspt
  · exact absurd ‹_› hsct
  · exact absurd ‹_› hcmd
  · rfl

/-- Events that write neither SPT nor SCT never count as such a write. -/
theorem pairWritten_of_not_writesPair {s : State} (h : ∀ e ∈ s.schedule, writesPair e = false) :
    pairWritten false s = false := by
  cases hs : s.schedule with
  | nil => simp [pairWritten, hs]
  | cons e rest =>
    have he : writesPair e = false := h e (by simp [hs])
    cases e with
    | read off => simp [pairWritten, hs]
    | reset => simp [pairWritten, hs]
    | trial => simp [pairWritten, hs]
    | write off v =>
      simp only [writesPair, Bool.or_eq_false_iff, beq_eq_false_iff_ne] at he
      by_cases hcmd : targetOf off = .reg .cmd
      · cases hd : decode v with
        | command i => rw [pairWritten_write_command _ hs hcmd hd, historyAfter_false]
        | illegal x => exact pairWritten_write_illegal _ hs hcmd hd
      · exact pairWritten_write_other _ hs hcmd he.1 he.2

/-! ### Frames of the invariant with the history -/

/-- Beside the invariant, the history speaks of the scanner's part and of the tables only. -/
theorem PairInv.frame {written : Bool} {s t : State} (h : PairInv written s) (ht : StateInv t)
    (hcfg : t.cfg = s.cfg) (hs : sameScanner s t) : PairInv written t := by
  obtain ⟨hspt, hsct, hkcnt, hmcount, -, hsbusy, -, -, hmem⟩ := hs
  refine ⟨ht, fun hw => ?_, hsbusy ▸ h.busy⟩
  rw [matchList_congr hmem hmcount, hcfg, hspt, hsct, hkcnt]
  exact h.result hw

/-- A history may be forgotten while no scan runs. -/
theorem PairInv.of_idle {s : State} (h : StateInv s) (hb : s.sbusy = false) : PairInv true s :=
  ⟨h, fun hw => absurd hw (by decide), fun hrun => absurd (hb.symm.trans hrun) (by decide)⟩

/-- The invariant with its history says nothing of the events to come and the port's answer. -/
theorem PairInv.withPort {written : Bool} {s : State} (h : PairInv written s) (es : List Event)
    (r : Response) : PairInv written { s with schedule := es, response := r } :=
  h.frame (h.inv.withPort es r) rfl (sameScanner_refl s)

/-- Raising an error leaves the history: it changes ERR alone (R236). -/
theorem PairInv.raised {written : Bool} {s : State} (h : PairInv written s) (e : ErrorCause) :
    PairInv written (raiseError e s) :=
  h.frame (h.inv.frame rfl (sameEngine_refl s) (sameScanner_refl s)) rfl (sameScanner_refl s)

/-- Where nothing has been tested, nothing is visible and the history is new (R192, R51). -/
theorem pairInv_of_kcnt_zero {s : State} (h : StateInv s) (hk : s.kcnt = 0) : PairInv false s := by
  have hm : s.mcount.toNat = 0 := Nat.le_zero.1 (by simpa [hk] using h.scan.mcount_le)
  exact ⟨h, fun _ => by simp [matchList, matchesBelow, hm, hk], fun _ => rfl⟩

/-! ### The scanner's turn -/

/-- A trial brings the matches of (SPT, SCT) up to date, also in the trial that ends the scan (R195, R197). -/
theorem TurnCase.matchList_of_busy {s t : State} (hc : TurnCase s t) (hb : s.sbusy = true)
    (h : MatchInv s) : matchList t = matchesBelow t.cfg.tables t.spt t.sct t.kcnt.toNat := by
  have hlist := h.matchList_of_busy hb
  cases hc with
  | idle hidle => exact hlist
  | missed _ hk hm =>
    have hmiss : encrypt s.cfg.tables s.spt (BitVec.ofNat 10 s.kcnt.toNat) ≠ s.sct := by
      rw [ne_eq, ← trialMatches_iff, hm]
      decide
    rw [matchList_congr (advanceScan_matchMem s) (advanceScan_mcount s), hlist, advanceScan_kcnt_toNat hk,
      matchesBelow_succ, advanceScan_cfg, advanceScan_spt, advanceScan_sct, if_neg hmiss, List.append_nil]
  | matched _ hk hm hcount =>
    have hkcnt : (advanceScan (appendMatch s)).kcnt.toNat = s.kcnt.toNat + 1 :=
      advanceScan_kcnt_toNat (s := appendMatch s) hk
    rw [matchList_congr (advanceScan_matchMem _) (advanceScan_mcount _), matchList_appendMatch hcount, hlist,
      trialKey_eq, hkcnt, matchesBelow_succ, advanceScan_cfg, advanceScan_spt, advanceScan_sct]
    exact congrArg _ (if_pos ((trialMatches_iff s).1 hm)).symm

theorem TurnCase.keeps_pair {written : Bool} {s t : State} (hc : TurnCase s t) (h : PairInv written s) :
    PairInv written t := by
  cases hb : s.sbusy with
  | true =>
    exact ⟨hc.keeps_inv h.inv, fun _ => hc.matchList_of_busy hb h.inv.results, fun _ => h.busy hb⟩
  | false =>
    cases hc with
    | idle => exact h
    | missed hrun => exact absurd (hb.symm.trans hrun) (by decide)
    | matched hrun => exact absurd (hb.symm.trans hrun) (by decide)

/-! ### Commands and writes -/

/-- Every command keeps the invariant, with the history that `pairWritten` gives it. -/
theorem ExecCase.keeps_pair {written : Bool} {s t : State} {i : Instr} (hc : ExecCase s i t)
    (h : PairInv written s) :
    PairInv (historyAfter written s i) t := by
  have ht : StateInv t := hc.keeps_inv h.inv
  cases hc with
  | nop => exact h
  | dropped _ hi he => rwa [historyAfter_locked written he hi]
  | keygen he => exact h.frame ht rfl (sameScanner_refl s)
  | enc he => exact h.frame ht rfl (sameScanner_refl s)
  | dec he => exact h.frame ht rfl (sameScanner_refl s)
  | busy he hb => simpa [historyAfter, hb] using h.raised .busy
  | search he hb => simpa [historyAfter, he, hb] using pairInv_of_kcnt_zero ht rfl
  | abort hb => exact ⟨ht, h.result, fun hrun => nomatch hrun⟩
  | abortIdle hb => exact h
  | srst => exact pairInv_of_kcnt_zero ht rfl

/-- A write to SPT or SCT keeps the invariant: where it is accepted no scan runs (R27). -/
theorem PairInv.writePair {written : Bool} {s t : State} {v : Word} (h : PairInv written s)
    (htarget : t = writeSpt v s ∨ t = writeSct v s) (ht : StateInv t) :
    PairInv (written || (!s.sbusy && !tooWide 8 v)) t := by
  by_cases hb : s.sbusy = true
  · have hbusy : t = raiseError .busy s := by simpa [writeSpt, writeSct, hb] using htarget
    simpa [hbusy, hb] using h.raised .busy
  by_cases hw : tooWide 8 v = true
  · have hwide : t = raiseError .width s := by simpa [writeSpt, writeSct, hb, hw] using htarget
    simpa [hwide, hw] using h.raised .width
  · have haccepted : t = { s with spt := v.setWidth 8 } ∨ t = { s with sct := v.setWidth 8 } := by
      simpa [writeSpt, writeSct, hb, hw] using htarget
    have hidle : t.sbusy = s.sbusy := by rcases haccepted with rfl | rfl <;> rfl
    simpa [hb, hw] using PairInv.of_idle ht (by simpa [hidle] using hb)

/-- A write that is none to CMD, SPT or SCT leaves the scanner's part. -/
theorem WriteCase.sameScanner_of_other {s t : State} {off : Offset} {v : Word} (hc : WriteCase s off v t)
    (hcmd : targetOf off ≠ .reg .cmd) (hspt : targetOf off ≠ .reg .spt)
    (hsct : targetOf off ≠ .reg .sct) : sameScanner s t := by
  cases hc with
  | command ht => exact absurd ht hcmd
  | spt ht => exact absurd ht hspt
  | sct ht => exact absurd ht hsct
  | _ => exact sameScanner_refl s

/-- A write to CMD raises ILLCMD or runs a command (R101, R104). -/
theorem runCommand_cases {v : Word} {s t : State} (h : runCommand v s = .next t) :
    (∃ x, decode v = .illegal x ∧ t = raiseError .illcmd s) ∨ ∃ i, decode v = .command i ∧ ExecCase s i t := by
  unfold runCommand at h
  split at h
  · next x hd => cases h; exact .inl ⟨x, hd, rfl⟩
  · next i hd => exact .inr ⟨i, hd, exec_cases h⟩

/-- A host write as the next event keeps the invariant and brings its history up to date. -/
theorem memWrite_keeps_pair {written : Bool} {s t : State} {off : Offset} {v : Word} {rest : List Event}
    {r : Response} (hs : s.schedule = .write off v :: rest) (h : PairInv written s)
    (hw : memWrite off v { s with schedule := rest, response := r } = .next t) :
    PairInv (pairWritten written s) t := by
  have hport := h.withPort rest r
  have hc := memWrite_cases hw
  have ht : StateInv t := hc.keeps_inv hport.inv
  by_cases hcmd : targetOf off = .reg .cmd
  · have hrun : runCommand v { s with schedule := rest, response := r } = .next t := by
      simpa [memWrite, hcmd, writeReg] using hw
    rcases runCommand_cases hrun with ⟨x, hd, rfl⟩ | ⟨i, hd, hexec⟩
    · rw [pairWritten_write_illegal _ hs hcmd hd]
      exact hport.raised .illcmd
    · rw [pairWritten_write_command _ hs hcmd hd]
      exact hexec.keeps_pair hport
  by_cases hspt : targetOf off = .reg .spt
  · rw [pairWritten_write_pair _ hs (.inl hspt)]
    simp only [memWrite, hspt, writeReg, Host.Outcome.next.injEq] at hw
    exact hport.writePair (.inl hw.symm) ht
  by_cases hsct : targetOf off = .reg .sct
  · rw [pairWritten_write_pair _ hs (.inr hsct)]
    simp only [memWrite, hsct, writeReg, Host.Outcome.next.injEq] at hw
    exact hport.writePair (.inr hw.symm) ht
  · rw [pairWritten_write_other _ hs hcmd hspt hsct]
    exact hport.frame ht hc.cfg_and_schedule.1 (hc.sameScanner_of_other hcmd hspt hsct)

/-! ### Steps and runs -/

/-- Every step keeps the invariant with its history (R50 item 7). -/
theorem step_keeps_pair {written : Bool} {s t : State} (h : PairInv written s) (hstep : step s = .next t) :
    PairInv (pairWritten written s) t := by
  cases hs : s.schedule with
  | nil =>
    rw [step_of_schedule_nil hs] at hstep
    have hport := h.withPort s.schedule .none
    simpa [pairWritten, hs] using (scannerTurn_cases hstep).keeps_pair hport
  | cons e rest =>
    rw [step_of_schedule_cons hs] at hstep
    have hport := h.withPort rest .none
    cases e with
    | read off =>
      have ht := (runEvent_cases hstep).keeps_inv hport.inv
      have hsame : pairWritten written s = written := by simp [pairWritten, hs]
      rw [hsame]
      cases runEvent_cases hstep with
      | read => exact hport.frame ht rfl (sameScanner_refl _)
      | readBad => exact hport.frame ht rfl (sameScanner_refl _)
    | write off v => exact memWrite_keeps_pair hs h hstep
    | reset =>
      cases hstep
      simpa [pairWritten, hs] using pairInv_of_kcnt_zero (stateInv_resetBlock hport.inv.cfg) rfl
    | trial => simpa [pairWritten, hs] using (scannerTurn_cases hstep).keeps_pair hport

/-- A run of one step more is a step and then the run. -/
theorem run_succ {n : Nat} {s t : State} (h : Sys2Proof.core.run (n + 1) s = .next t) :
    ∃ u, step s = .next u ∧ Sys2Proof.core.run n u = .next t := by
  cases hs : step s with
  | next u => exact ⟨u, rfl, by simpa [Host.Core.run, core, hs] using h⟩
  | fault f => simp [Host.Core.run, core, hs] at h
  | refused r => simp [Host.Core.run, core, hs] at h

/-- A run whose events write neither SPT nor SCT keeps the history empty. -/
theorem run_keeps_unwritten_pair {n : Nat} {s t : State} (h : PairInv false s)
    (hes : ∀ e ∈ s.schedule, writesPair e = false) (hrun : Sys2Proof.core.run n s = .next t) :
    PairInv false t := by
  induction n generalizing s with
  | zero => cases hrun; exact h
  | succ n ih =>
    obtain ⟨u, hstep, hrest⟩ := run_succ hrun
    have hu : PairInv false u := by
      simpa only [pairWritten_of_not_writesPair hes] using step_keeps_pair h hstep
    refine ih hu (fun e he => hes e ?_) hrest
    rw [(step_cases hstep).cfg_and_schedule.2] at he
    exact List.mem_of_mem_tail he

end Sys2Proof.Machine

namespace Sys2Proof.Proofs
open Sys2Proof Sys2Proof.Machine

/-- Settles O48, by the kind of the next event; at a host write, by its target. -/
theorem everyStepKeepsThePairInvariant : Obligations.EveryStepKeepsThePairInvariant :=
  fun _ _ _ hinv hstep => step_keeps_pair hinv hstep

/-- Settles O49, by induction on the number of steps; a scan that is done has tested all keys. -/
theorem unwrittenPairKeepsItsResults : Obligations.UnwrittenPairKeepsItsResults := by
  intro s t n hpair hes hrun
  have ht : PairInv false t := run_keeps_unwritten_pair hpair hes hrun
  have hlist := ht.result rfl
  refine ⟨hlist, fun hdone => ?_⟩
  rw [hlist, ht.inv.scan.done_kcnt hdone, searchKeys]

/-- Settles O45. -/
theorem configurationNeverChanges : Obligations.ConfigurationNeverChanges :=
  fun _ _ hstep => (step_cases hstep).cfg_and_schedule.1

end Sys2Proof.Proofs
end

section
/-! PROOFS. When the bits of ERR and IP rise and fall (spec/10_state.md rules R32, R34; spec/60_exceptions.md rules
R240, R241). -/

namespace Sys2Proof.Machine

/-! ### The one offset of a register and the one word of a command -/

theorem regOffset_regOfIndex (n : BitVec 4) : regOffset (regOfIndex n) = n.setWidth 13 <<< 2 := by
  revert n
  decide

/-- Only a register's own offset names it (R74). -/
theorem targetOf_eq_reg {off : Offset} {r : Reg} : targetOf off = .reg r ↔ off = regOffset r := by
  constructor
  · intro h
    unfold targetOf at h
    split at h
    · cases h
    · next haligned =>
      split at h
      · next hlow =>
        cases h
        rw [regOffset_regOfIndex]
        have hmod : off.toNat % 4 = 0 := by
          simpa [← BitVec.toNat_inj, BitVec.extractLsb'_toNat] using haligned
        apply BitVec.eq_of_toNat_eq
        simp [BitVec.toNat_shiftLeft, BitVec.extractLsb'_toNat, Nat.shiftLeft_eq, Nat.shiftRight_eq_div_pow]
        omega
      · split at h <;> cases h
  · rintro rfl
    exact targetOf_regOffset r

/-- A word with its reserved bits 0 is its field OP with zeros above (R100). -/
theorem word_of_opField {v : Word} (h : reservedField v = 0) : v = (0 : BitVec 28) ++ opField v := by
  apply BitVec.eq_of_getLsbD_eq
  intro i hi
  have hbit := congrArg (fun x : BitVec 28 => x.getLsbD (i - 4)) h
  simp only [reservedField, BitVec.getLsbD_extractLsb', BitVec.ofNat_eq_ofNat, BitVec.getLsbD_zero] at hbit
  rw [BitVec.getLsbD_append]
  by_cases hlow : i < 4
  · simp [hlow, opField]
  · simpa [hlow, show i - 4 < 28 by omega, show 4 + (i - 4) = i by omega] using hbit

/-- Only its own word decodes to a command (R101, R102). -/
theorem eq_encode_of_decode {v : Word} {i : Instr} (h : decode v = .command i) : v = encode i := by
  unfold decode at h
  split at h
  · cases h
  · next hreserved =>
    rw [word_of_opField (not_not.1 hreserved), encode]
    congr 1
    split at h <;> cases h <;> exact BitVec.eq_of_toNat_eq ‹_›

/-! ### Events that may clear a flag -/

/-- The events that may clear bit `c` of the flag register `r`: a reset, SRST, and a host write of 1 to the bit
(R32, R34). -/
def clearsBit (r : Reg) (c : Nat) : Event → Prop
  | .read _ => False
  | .write off v => (off = regOffset .cmd ∧ v = encode .srst) ∨ (off = regOffset r ∧ v.getLsbD c = true)
  | .reset => True
  | .trial => False

/-- Such an event at the head of the schedule, in the form of the statements. -/
theorem schedule_of_clearsBit {s : State} {e : Event} {rest : List Event} {r : Reg} {c : Nat}
    (hs : s.schedule = e :: rest) (h : clearsBit r c e) :
    ∃ rest, s.schedule = .reset :: rest ∨ s.schedule = .write 0x0004 0x00000006 :: rest
      ∨ ∃ v : Word, s.schedule = .write (regOffset r) v :: rest ∧ v.getLsbD c = true := by
  refine ⟨rest, ?_⟩
  cases e with
  | read off => exact h.elim
  | reset => exact .inl hs
  | trial => exact h.elim
  | write off v =>
    rcases h with ⟨rfl, rfl⟩ | ⟨rfl, hv⟩
    · exact .inr (.inl hs)
    · exact .inr (.inr ⟨v, hs, hv⟩)

/-- A write-one-to-clear keeps the bits written as 0. -/
theorem getLsbD_clearOnes {w : Nat} (field : BitVec w) (v : Word) (c : Nat) :
    (clearOnes field v).getLsbD c = (field.getLsbD c && !v.getLsbD c) := by
  by_cases hc : c < w
  · simp [clearOnes, hc]
  · simp [BitVec.getLsbD_of_ge, Nat.le_of_not_lt hc]

/-! ### ERR -/

/-- Only SRST among the commands clears a bit of ERR (R220, R240). -/
theorem ExecCase.err_sticky {s t : State} {i : Instr} {c : Nat} (hc : ExecCase s i t)
    (h : s.err.getLsbD c = true) : t.err.getLsbD c = true ∨ i = .srst := by
  cases hc with
  | busy he hb => exact .inl (by simp [h])
  | srst => exact .inr rfl
  | _ => exact .inl h

/-- A bit of ERR that an event clears is one that the event may clear. -/
theorem EventCase.err_sticky {s t : State} {e : Event} {c : Nat} (hc : EventCase s e t)
    (h : s.err.getLsbD c = true) : t.err.getLsbD c = true ∨ clearsBit .err c e := by
  cases hc with
  | read off w => exact .inl h
  | readBad off => exact .inl (by simp [h])
  | reset => exact .inr trivial
  | trial hc => cases hc <;> exact .inl (by simpa using h)
  | write off v hc =>
    cases hc with
    | raised e => exact .inl (by simp [h])
    | command ht i hd hc =>
      refine (hc.err_sticky h).imp_right fun hi => .inl ⟨targetOf_eq_reg.1 ht, ?_⟩
      exact hi ▸ eq_encode_of_decode hd
    | acknowledged ht =>
      cases hv : v.getLsbD c with
      | true => exact .inr (.inr ⟨targetOf_eq_reg.1 ht, hv⟩)
      | false => exact .inl (by simp [getLsbD_clearOnes, h, hv])
    | _ => exact .inl h

/-! ### IP -/

/-- Only SRST among the commands touches IP (R103, R222). -/
theorem ExecCase.ip_kept_or_srst {s t : State} {i : Instr} (hc : ExecCase s i t) :
    t.ip = s.ip ∨ i = .srst ∧ t.ip = 0 := by
  cases hc with
  | srst => exact .inr ⟨rfl, rfl⟩
  | _ => exact .inl rfl

/-- A host write leaves a bit of IP as it is, or it clears it and may. -/
theorem WriteCase.ip_bit {s t : State} {off : Offset} {v : Word} (hc : WriteCase s off v t) (c : Nat) :
    t.ip.getLsbD c = s.ip.getLsbD c ∨ t.ip.getLsbD c = false ∧ clearsBit .ip c (.write off v) := by
  cases hc with
  | command ht i hd hc =>
    rcases hc.ip_kept_or_srst with hip | ⟨rfl, hip⟩
    · exact .inl (by rw [hip])
    · exact .inr ⟨by simp [hip], .inl ⟨targetOf_eq_reg.1 ht, eq_encode_of_decode hd⟩⟩
  | ip ht =>
    cases hv : v.getLsbD c with
    | true => exact .inr ⟨by simp [getLsbD_clearOnes, hv], .inr ⟨targetOf_eq_reg.1 ht, hv⟩⟩
    | false => exact .inl (by simp [getLsbD_clearOnes, hv])
  | _ => exact .inl rfl

/-- A step that is the scanner's turn, or one that leaves a bit of IP as it is or clears it and may. -/
theorem StepCase.turn_or_ip_bit {s t : State} (hc : StepCase s t) (c : Nat) :
    (scannersTurn s ∧ ∃ rest, TurnCase (atEvent s rest) t)
      ∨ t.ip.getLsbD c = s.ip.getLsbD c
      ∨ t.ip.getLsbD c = false ∧ ∃ e rest, s.schedule = e :: rest ∧ clearsBit .ip c e := by
  cases hc with
  | silent hs hc => exact .inl ⟨.inl hs, _, hc⟩
  | event e rest hs hc =>
    cases hc with
    | read off w => exact .inr (.inl rfl)
    | readBad off => exact .inr (.inl rfl)
    | write off v hc => exact .inr ((hc.ip_bit c).imp_right fun ⟨h0, hclears⟩ => ⟨h0, _, _, hs, hclears⟩)
    | reset => exact .inr (.inr ⟨by simp, _, _, hs, trivial⟩)
    | trial hc => exact .inl ⟨.inr ⟨rest, hs⟩, _, hc⟩

/-- What a trial does to KCNT, SDONE, IP and PROGRESS, whether its key matches or not (R196, R198, R199). -/
theorem TurnCase.reports {s t : State} (hc : TurnCase s t) :
    s.sbusy = false ∧ t = s ∨
    s.sbusy = true ∧ s.kcnt.toNat ≤ 1023 ∧ t.kcnt.toNat = s.kcnt.toNat + 1
      ∧ t.sdone = (if s.kcnt.toNat = 1023 then true else s.sdone)
      ∧ t.ip = (if s.kcnt.toNat = 1023 then s.ip ||| ipProg ||| ipDone
          else if reportDue s.cfg s.kcnt.toNat then s.ip ||| ipProg else s.ip)
      ∧ t.progress = (if s.kcnt.toNat = 1023 then 100
          else if reportDue s.cfg s.kcnt.toNat then percentAt s.kcnt.toNat else s.progress) := by
  cases hc with
  | idle hb => exact .inl ⟨hb, rfl⟩
  | missed hb hk hm =>
    exact .inr ⟨hb, Nat.le_of_lt_succ hk, advanceScan_kcnt_toNat hk, advanceScan_sdone s, advanceScan_ip s,
      advanceScan_progress s⟩
  | matched hb hk hm hcount =>
    exact .inr ⟨hb, Nat.le_of_lt_succ hk, advanceScan_kcnt_toNat (s := appendMatch s) hk, advanceScan_sdone _,
      advanceScan_ip _, advanceScan_progress _⟩

/-- The scanner's turn clears no bit of IP. -/
theorem TurnCase.ip_kept {s t : State} {c : Nat} (hc : TurnCase s t) (h : s.ip.getLsbD c = true) :
    t.ip.getLsbD c = true := by
  rcases hc.reports with ⟨-, rfl⟩ | ⟨-, -, -, -, hip, -⟩
  · exact h
  · rw [hip]
    split_ifs <;> simp [h]

/-- IP.DONE rises in the trial of key 1023 only (R199). -/
theorem TurnCase.done_rises {s t : State} (hc : TurnCase s t) (h0 : s.ip.getLsbD 0 = false)
    (h1 : t.ip.getLsbD 0 = true) :
    s.sbusy = true ∧ s.kcnt.toNat = 1023 ∧ t.kcnt.toNat = s.kcnt.toNat + 1 ∧ t.sdone = true := by
  rcases hc.reports with ⟨-, rfl⟩ | ⟨hb, -, hkcnt, hdone, hip, -⟩
  · exact absurd (h0.symm.trans h1) (by decide)
  · have hlast : s.kcnt.toNat = 1023 := by
      by_contra hlast
      have hkept : t.ip.getLsbD 0 = s.ip.getLsbD 0 := by
        rw [hip, if_neg hlast]
        split <;> simp [ipProg]
      exact absurd (h0.symm.trans (hkept.symm.trans h1)) (by decide)
    exact ⟨hb, hlast, hkcnt, by rw [hdone, if_pos hlast]⟩

/-- IP.PROG rises in a trial that reports only (R198). -/
theorem TurnCase.prog_rises {s t : State} (hc : TurnCase s t) (h0 : s.ip.getLsbD 1 = false)
    (h1 : t.ip.getLsbD 1 = true) :
    s.sbusy = true ∧ t.kcnt.toNat = s.kcnt.toNat + 1
      ∧ (s.kcnt.toNat % s.cfg.progInterval = 0 ∨ s.kcnt.toNat = 1023) := by
  rcases hc.reports with ⟨-, rfl⟩ | ⟨hb, -, hkcnt, -, hip, -⟩
  · exact absurd (h0.symm.trans h1) (by decide)
  · refine ⟨hb, hkcnt, ?_⟩
    by_contra! hquiet
    obtain ⟨hinterval, hlast⟩ := hquiet
    rw [hip, if_neg hlast, if_neg (by simpa [reportDue] using hinterval)] at h1
    exact absurd (h0.symm.trans h1) (by decide)

end Sys2Proof.Machine

namespace Sys2Proof.Proofs
open Sys2Proof Sys2Proof.Machine

/-- Settles O22: the scanner's turn leaves ERR, and an event clears only the bits it may. -/
theorem errBitsAreSticky : Obligations.ErrBitsAreSticky := by
  intro s t c hstep hset hclear
  cases step_cases hstep with
  | silent hs hc =>
    have herr : t.err = s.err := by cases hc <;> simp [atEvent]
    exact absurd (hset.symm.trans (herr ▸ hclear)) (by decide)
  | event e rest hs hc =>
    rcases hc.err_sticky hset with hkept | hclears
    · exact absurd (hkept.symm.trans hclear) (by decide)
    · exact schedule_of_clearsBit hs hclears

/-- Settles O25: a bit of IP that rises does so in the scanner's turn, and one that falls does not. -/
theorem pendingBitsRiseOnlyInTrials : Obligations.PendingBitsRiseOnlyInTrials := by
  intro s t c hstep
  have rises {b : Nat} (h0 : s.ip.getLsbD b = false) (h1 : t.ip.getLsbD b = true) :
      scannersTurn s ∧ ∃ rest, TurnCase (atEvent s rest) t := by
    rcases (step_cases hstep).turn_or_ip_bit b with hturn | hkept | ⟨hzero, -⟩
    · exact hturn
    · exact absurd (h0.symm.trans (hkept.symm.trans h1)) (by decide)
    · exact absurd (hzero.symm.trans h1) (by decide)
  refine ⟨fun h0 h1 => ?done, fun h0 h1 => ?prog, fun hset hclear => ?falls⟩
  case done =>
    obtain ⟨hturn, rest, hc⟩ := rises h0 h1
    exact ⟨hturn, hc.done_rises h0 h1⟩
  case prog =>
    obtain ⟨hturn, rest, hc⟩ := rises h0 h1
    exact ⟨hturn, hc.prog_rises h0 h1⟩
  case falls =>
    rcases (step_cases hstep).turn_or_ip_bit c with ⟨-, rest, hc⟩ | hkept | ⟨-, e, rest, hs, hclears⟩
    · exact absurd ((hc.ip_kept hset).symm.trans hclear) (by decide)
    · exact absurd (hset.symm.trans (hkept.symm.trans hclear)) (by decide)
    · exact schedule_of_clearsBit hs hclears

end Sys2Proof.Proofs
end

section
/-! PROOFS. What stands after reset, what a step keeps of a scan's results, and the interrupt output
(spec/10_state.md rules R37, R50 to R52; spec/45_key_search.md rule R201; spec/20_memory.md rule R91). -/

namespace Sys2Proof.Machine

/-! ### Reset -/

theorem defaultConfig_wf : defaultConfig.wf = true := by decide +kernel

/-- The state after reset is that of a reset event at it. -/
theorem resetBlock_reset : resetBlock State.reset = State.reset := rfl

/-- After a reset every register but ID reads 0 (R51). -/
theorem readReg_resetBlock {r : Reg} (s : State) (h : r ≠ .id) : readReg (resetBlock s) r = 0 := by
  cases r with
  | id => exact absurd rfl h
  | status => simp [readReg, statusWord, flagAt, errAny]
  | _ => rfl

/-- After a reset every offset but that of ID reads 0: no MATCH entry is visible (R37, R51). -/
theorem memRead_resetBlock {off : Offset} (s : State) (h : off ≠ regOffset .id) :
    (memRead off (resetBlock s)).1 = 0 := by
  unfold memRead
  cases ht : targetOf off with
  | reg r => exact readReg_resetBlock s fun hr => h (targetOf_eq_reg.1 (hr ▸ ht))
  | matchEntry i => simp [readMatch]
  | unmapped => rfl
  | misaligned => rfl

/-- After a reset the interrupt output is 0 (R52). -/
theorem irq_resetBlock (s : State) : irq (resetBlock s) = false := by simp [irq, errAny]

/-! ### The result sequence -/

/-- The keys below `n` that match are strictly ascending (R190, R194). -/
theorem matchesBelow_ascending (t : Tables) (p c : Block) {n : Nat} (hn : n ≤ 1024) :
    (matchesBelow t p c n).Pairwise fun a b => a.toNat < b.toNat := by
  refine List.Pairwise.filter _ (List.pairwise_map.2 ?_)
  refine List.Pairwise.imp_of_mem (fun {a b} ha hb hab => ?_) List.pairwise_lt_range
  have ha := List.mem_range.1 ha
  have hb := List.mem_range.1 hb
  simp only [BitVec.toNat_ofNat]
  omega

/-- Under the invariant the visible keys rise strictly (R50 item 7). -/
theorem StateInv.matchCell_lt {s : State} (h : StateInv s) {i j : Nat} (hij : i < j)
    (hj : j < s.mcount.toNat) : (matchCell s i).toNat < (matchCell s j).toNat := by
  obtain ⟨p, c, hlist, -⟩ := h.results.result
  have hascending := hlist ▸ matchesBelow_ascending s.cfg.tables p c h.scan.kcnt_le
  have hlen : (matchList s).length = s.mcount.toNat := by simp [matchList]
  simpa [matchList] using
    List.pairwise_iff_getElem.1 hascending i j (by omega) (by omega) hij

/-- A read of a MATCH entry, at the offset written as the spec writes it (R37, R81). -/
theorem memRead_matchEntry {i : Nat} (s : State) (hi : i < 1024) :
    memRead (BitVec.ofNat 13 (0x1000 + 4 * i)) s
      = (if i < s.mcount.toNat then 0x80000000 ||| (matchCell s i).setWidth 32 else 0, s) := by
  rw [← matchOffset_eq hi, memRead_matchOffset, readMatch, BitVec.toNat_ofNat, Nat.mod_eq_of_lt hi]

/-! ### What a step keeps of a scan's results -/

/-- No counter falls, and the visible MATCH entries stay (R91, R201). -/
def resultsGrow (s t : State) : Prop :=
  s.progress.toNat ≤ t.progress.toNat ∧ s.kcnt.toNat ≤ t.kcnt.toNat ∧ s.mcount.toNat ≤ t.mcount.toNat
    ∧ ∀ i < s.mcount.toNat, matchCell t i = matchCell s i

theorem resultsGrow_refl (s : State) : resultsGrow s s :=
  ⟨Nat.le_refl _, Nat.le_refl _, Nat.le_refl _, fun _ _ => rfl⟩

/-- A running scan's next report is not below its last (R201). -/
theorem TurnCase.progress_le {s t : State} (hc : TurnCase s t) (h : ScanInv s) :
    s.progress.toNat ≤ t.progress.toNat := by
  rcases hc.reports with ⟨-, rfl⟩ | ⟨hb, hk, -, -, -, hprogress⟩
  · exact Nat.le_refl _
  · have hlast := h.progress_kcnt hb
    rw [hprogress]
    split_ifs
    · exact h.progress_le
    · rwa [percentAt_toNat (by omega)]
    · exact Nat.le_refl _

theorem TurnCase.resultsGrow {s t : State} (hc : TurnCase s t) (h : ScanInv s) : resultsGrow s t := by
  have hprogress := hc.progress_le h
  cases hc with
  | idle hb => exact resultsGrow_refl s
  | missed hb hk hm =>
    exact ⟨hprogress, by rw [advanceScan_kcnt_toNat hk]; omega, by simp,
      fun i _ => by simp [matchCell]⟩
  | matched hb hk hm hcount =>
    refine ⟨hprogress, ?_, ?_, fun i hi => ?_⟩
    · rw [advanceScan_kcnt_toNat (s := appendMatch s) hk]
      exact Nat.le_succ _
    · rw [advanceScan_mcount, appendMatch_mcount_toNat hcount]
      exact Nat.le_succ _
    · simp only [matchCell, advanceScan_matchMem, appendMatch_matchMem,
        matchRead_matchWrite_other _ _ (Nat.ne_of_lt hi)]

/-- Every command but SEARCH and SRST keeps the results, ABORT among them (R203). -/
theorem ExecCase.resultsGrow {s t : State} {i : Instr} (hc : ExecCase s i t) (hsearch : i ≠ .search)
    (hsrst : i ≠ .srst) : resultsGrow s t := by
  cases hc with
  | search => exact absurd rfl hsearch
  | srst => exact absurd rfl hsrst
  | _ => exact resultsGrow_refl s

/-- Every event with `keepsResults` keeps them. -/
theorem EventCase.resultsGrow {s t : State} {e : Event} (hc : EventCase s e t) (hk : keepsResults e = true)
    (h : ScanInv s) : resultsGrow s t := by
  cases hc with
  | reset => cases hk
  | trial hc => exact hc.resultsGrow h
  | write off v hc =>
    cases hc with
    | command ht i hd hc =>
      obtain ⟨hsearch, hsrst⟩ : i ≠ .search ∧ i ≠ .srst := by simpa [keepsResults, ht, hd] using hk
      exact hc.resultsGrow hsearch hsrst
    | _ => exact resultsGrow_refl s
  | _ => exact resultsGrow_refl s

end Sys2Proof.Machine

namespace Sys2Proof.Proofs
open Sys2Proof Sys2Proof.Machine

/-- Settles O38: a trial by trial, every other event because it leaves the counters and MATCH. -/
theorem progressNeverFalls : Obligations.ProgressNeverFalls := by
  intro s t hinv hstep hkeeps
  have hgrow : resultsGrow s t := by
    cases step_cases hstep with
    | silent hs hc => exact hc.resultsGrow (hinv.withPort _ _).scan
    | event e rest hs hc => exact hc.resultsGrow (hkeeps e rest hs) (hinv.withPort _ _).scan
  have ht : StateInv t := everyStepKeepsTheInvariant s t hinv hstep
  obtain ⟨hprogress, hkcnt, hmcount, hcells⟩ := hgrow
  exact ⟨hprogress, hkcnt, hmcount, hcells, ht.scan.progress_done⟩

/-- Settles O39: the visible cells are the matches below KCNT, which ascend. -/
theorem visibleMatchesAreWrittenAndAscending : Obligations.VisibleMatchesAreWrittenAndAscending := by
  intro s hinv
  have hdepth : s.mcount.toNat ≤ 1024 := hinv.scan.mcount_le.trans hinv.scan.kcnt_le
  refine ⟨fun i hi => ?written, fun i j hij hj => hinv.matchCell_lt hij hj, fun i hi hhidden => ?hidden⟩
  case written =>
    obtain ⟨k, hk⟩ := Option.isSome_iff_exists.1 (hinv.results.written i hi)
    refine ⟨k, hk, ?_⟩
    rw [memRead_matchEntry s (by omega), if_pos hi, matchCell_of_read hk]
  case hidden => rw [memRead_matchEntry s hi, if_neg (by omega)]

/-- Settles O44: the three states are all a reset of some state. -/
theorem resetReadsAsZero : Obligations.ResetReadsAsZero := by
  intro s t ht
  obtain ⟨u, rfl⟩ : ∃ u, t = resetBlock u := by
    rcases ht with rfl | hsrst | hreset
    · exact ⟨State.reset, resetBlock_reset.symm⟩
    · cases hsrst; exact ⟨s, rfl⟩
    · cases hreset; exact ⟨s, rfl⟩
  exact ⟨rfl, irq_resetBlock u, rfl, fun off hoff => memRead_resetBlock u hoff⟩

/-- Settles O24. -/
theorem irqIsALevelOfTheState : Obligations.IrqIsALevelOfTheState := by
  intro s
  simp only [irq, errAny, Bool.or_eq_true, Bool.and_eq_true, bne_iff_ne, ne_eq, or_assoc]

/-- Settles O46: the state after reset is a reset of the default configuration, which is well formed. -/
theorem resetHasTheInvariant : Obligations.ResetHasTheInvariant := by
  have hinv : StateInv State.reset := stateInv_resetBlock (s := State.reset) defaultConfig_wf
  exact ⟨hinv, pairInv_of_kcnt_zero hinv rfl⟩

end Sys2Proof.Proofs
end

section
/-! PROOFS. What a host access does at every offset (spec/20_memory.md rules R79 to R82), and when a step answers
a next state (rule R92; spec/00_scope.md rule R15). -/

namespace Sys2Proof.Machine

/-! ### Reads -/

/-- The flags of STATUS stand at bits of their own, so the word is their sum (R31). -/
theorem statusWord_toNat (s : State) :
    (statusWord s).toNat = s.sbusy.toNat + 2 * s.sdone.toNat + 4 * s.sabort.toNat + 8 * s.kvalid.toNat
      + 16 * s.lastop.toNat + 64 * (errAny s).toNat := by
  have hsum : ∀ (busy done aborted valid any : Bool) (op : BitVec 2),
      (flagAt busy 0 ||| flagAt done 1 ||| flagAt aborted 2 ||| flagAt valid 3 ||| (op.setWidth 32 <<< 4)
          ||| flagAt any 6).toNat
        = busy.toNat + 2 * done.toNat + 4 * aborted.toNat + 8 * valid.toNat + 16 * op.toNat
          + 64 * any.toNat := by
    decide
  exact hsum ..

theorem errAny_toNat (s : State) : (errAny s).toNat = if s.err = 0 then 0 else 1 := by
  by_cases he : s.err = 0
  · simp [errAny, he]
  · rw [show errAny s = true from bne_iff_ne.2 he, if_neg he]
    rfl

/-! ### Bad offsets and read-only words -/

/-- `bad(off)` of R79: such an offset names nothing. -/
theorem targetOf_of_bad {off : Offset}
    (h : off.extractLsb' 0 2 ≠ 0 ∨ (0x0040 ≤ off.toNat ∧ off.toNat ≤ 0x0FFF)) :
    targetOf off = .misaligned ∨ targetOf off = .unmapped := by
  by_cases hlow : off.extractLsb' 0 2 = 0
  · obtain ⟨hlo, hhi⟩ := h.resolve_left (not_not.2 hlow)
    refine .inr ?_
    unfold targetOf
    rw [if_neg (not_not.2 hlow), if_neg (by omega), if_pos (by omega)]
  · exact .inl (if_pos hlow)

theorem memRead_of_bad {off : Offset} (h : targetOf off = .misaligned ∨ targetOf off = .unmapped)
    (s : State) : memRead off s = (0, raiseError .access s) := by
  unfold memRead
  rcases h with h | h <;> rw [h]

theorem memWrite_of_bad {off : Offset} (h : targetOf off = .misaligned ∨ targetOf off = .unmapped)
    (v : Word) (s : State) : memWrite off v s = .next (raiseError .access s) := by
  unfold memWrite
  rcases h with h | h <;> rw [h]

/-- The registers that a host cannot write (R80). -/
def readOnlyRegs : List Reg := [.id, .status, .dout, .k1, .k2, .kcnt, .mcount, .progress]

theorem writeReg_of_readOnly {r : Reg} (h : r ∈ readOnlyRegs) (v : Word) (s : State) :
    writeReg r v s = .next (raiseError .access s) := by
  fin_cases h <;> rfl

/-- A write to a word that a host cannot write, a register's or a MATCH entry's, raises ACCESS (R80). -/
theorem memWrite_of_readOnly {off : Offset}
    (h : off ∈ readOnlyRegs.map regOffset ∨ ∃ i < 1024, off.toNat = 0x1000 + 4 * i) (v : Word) (s : State) :
    memWrite off v s = .next (raiseError .access s) := by
  rcases h with hreg | ⟨i, hi, hoff⟩
  · obtain ⟨r, hr, rfl⟩ := List.mem_map.1 hreg
    rw [memWrite_regOffset, writeReg_of_readOnly hr]
  · have hmatch : off = matchOffset (BitVec.ofNat 10 i) := by
      rw [matchOffset_eq hi, ← hoff, BitVec.ofNat_toNat, BitVec.setWidth_eq]
    rw [hmatch, memWrite_matchOffset]

/-! ### Writes to registers -/

/-- A word is too wide for `w` bits exactly when its number is `2^w` or more (R231). -/
theorem tooWide_iff {w : Nat} {v : Word} : tooWide w v = true ↔ 2 ^ w ≤ v.toNat := by
  simp [tooWide, ← BitVec.toNat_inj, Nat.shiftRight_eq_div_pow, Nat.div_eq_zero_iff]

theorem tooWide_of_lt {w : Nat} {v : Word} (h : v.toNat < 2 ^ w) : ¬ tooWide w v = true := by
  rw [tooWide_iff]
  omega

theorem writeReg_cmd_command {v : Word} {i : Instr} (h : decode v = .command i) (s : State) :
    writeReg .cmd v s = exec i s := runCommand_of_decode h s

theorem writeReg_cmd_illegal {v : Word} {e : DecodeError} (h : decode v = .illegal e) (s : State) :
    writeReg .cmd v s = .next (raiseError .illcmd s) := by
  simp only [writeReg, runCommand, h]

theorem writeReg_key_fits {v : Word} (h : v.toNat < 2 ^ 10) (s : State) :
    writeReg .key v s = .next { s with key := v.setWidth 10, kvalid := false, lastop := 0 } :=
  congrArg Host.Outcome.next (if_neg (tooWide_of_lt h))

theorem writeReg_key_wide {v : Word} (h : 2 ^ 10 ≤ v.toNat) (s : State) :
    writeReg .key v s = .next (raiseError .width s) :=
  congrArg Host.Outcome.next (if_pos (tooWide_iff.2 h))

theorem writeReg_din_fits {v : Word} (h : v.toNat < 2 ^ 8) (s : State) :
    writeReg .din v s = .next { s with din := v.setWidth 8, lastop := 0 } :=
  congrArg Host.Outcome.next (if_neg (tooWide_of_lt h))

theorem writeReg_din_wide {v : Word} (h : 2 ^ 8 ≤ v.toNat) (s : State) :
    writeReg .din v s = .next (raiseError .width s) :=
  congrArg Host.Outcome.next (if_pos (tooWide_iff.2 h))

/-- While a scan runs SPT and SCT refuse every write (R27). -/
theorem writeReg_pair_busy {s : State} (hb : s.sbusy = true) (v : Word) :
    writeReg .spt v s = .next (raiseError .busy s) ∧ writeReg .sct v s = .next (raiseError .busy s) := by
  simp only [writeReg, writeSpt, writeSct, if_pos hb, and_self]

theorem writeReg_pair_fits {s : State} {v : Word} (hb : s.sbusy = false) (h : v.toNat < 2 ^ 8) :
    writeReg .spt v s = .next { s with spt := v.setWidth 8 }
      ∧ writeReg .sct v s = .next { s with sct := v.setWidth 8 } := by
  simp [writeReg, writeSpt, writeSct, hb, tooWide_of_lt h]

theorem writeReg_pair_wide {s : State} {v : Word} (hb : s.sbusy = false) (h : 2 ^ 8 ≤ v.toNat) :
    writeReg .spt v s = .next (raiseError .width s)
      ∧ writeReg .sct v s = .next (raiseError .width s) := by
  simp [writeReg, writeSpt, writeSct, hb, tooWide_iff.2 h]

/-! ### Steps that answer a next state -/

/-- Every event but a trial slot answers a next state. -/
theorem runEvent_next {e : Event} (h : e ≠ .trial) (s : State) : ∃ t, runEvent e s = .next t := by
  cases e with
  | read off => exact ⟨_, rfl⟩
  | write off v =>
    obtain ⟨t, ht, -⟩ := memWrite_spec off v { s with response := .written }
    exact ⟨t, ht⟩
  | reset => exact ⟨_, rfl⟩
  | trial => exact absurd rfl h

/-- A step that is not the scanner's turn answers a next state. -/
theorem step_turn_or_runs (s : State) :
    (scannersTurn s ∧ ∃ rest, step s = scannerTurn (atEvent s rest)) ∨ Runs s := by
  cases hs : s.schedule with
  | nil =>
    refine .inl ⟨.inl hs, [], ?_⟩
    rw [step_of_schedule_nil hs, atEvent, ← hs]
  | cons e rest =>
    by_cases he : e = .trial
    · subst he
      exact .inl ⟨.inr ⟨rest, hs⟩, rest, step_of_schedule_cons hs⟩
    · obtain ⟨t, ht⟩ := runEvent_next he (atEvent s rest)
      exact .inr ⟨t, (step_of_schedule_cons hs).trans ht⟩

/-- A step runs where the key of a trial and its MATCH cell exist. -/
theorem runs_of_trial_in_range {s : State}
    (h : s.sbusy = true → s.kcnt.toNat < 1024 ∧ s.mcount.toNat < 1024) : Runs s := by
  rcases step_turn_or_runs s with ⟨-, rest, hturn⟩ | hruns
  · obtain ⟨t, ht⟩ := scannerTurn_next (s := atEvent s rest) h
    exact ⟨t, hturn.trans ht⟩
  · exact hruns

/-- While a scan runs there is a key to test and a MATCH cell for it (R50 items 4 and 5, R92). -/
theorem ScanInv.trial_in_range {s : State} (h : ScanInv s) (hb : s.sbusy = true) :
    s.kcnt.toNat < 1024 ∧ s.mcount.toNat < 1024 := by
  have hk := h.busy_kcnt hb
  have hm := h.mcount_le
  omega

end Sys2Proof.Machine

namespace Sys2Proof.Proofs
open Sys2Proof Sys2Proof.Machine

/-- Settles O17: each offset is that of its register, and STATUS is the sum of its flags. -/
theorem memReadReturnsTheFields : Obligations.MemReadReturnsTheFields := by
  intro s
  refine ⟨memRead_regOffset .id s, memRead_regOffset .cmd s,
    ⟨statusWord s, memRead_regOffset .status s, ?_⟩, memRead_regOffset .err s, memRead_regOffset .key s,
    memRead_regOffset .din s, memRead_regOffset .dout s, memRead_regOffset .k1 s, memRead_regOffset .k2 s,
    memRead_regOffset .spt s, memRead_regOffset .sct s, memRead_regOffset .kcnt s,
    memRead_regOffset .mcount s, memRead_regOffset .progress s, memRead_regOffset .ie s,
    memRead_regOffset .ip s, fun i hi => memRead_matchEntry s hi⟩
  rw [statusWord_toNat, errAny_toNat]

/-- Settles O18: a bad offset names no register and no MATCH entry. -/
theorem badOffsetsRaiseAccessOnly : Obligations.BadOffsetsRaiseAccessOnly := by
  intro s off v hbad
  have htarget := targetOf_of_bad hbad
  exact ⟨memRead_of_bad htarget s, memWrite_of_bad htarget v s⟩

/-- Settles O19. -/
theorem readOnlyWritesRaiseAccessOnly : Obligations.ReadOnlyWritesRaiseAccessOnly :=
  fun s _ v hoff => memWrite_of_readOnly hoff v s

/-- Settles O20: the write at each register's offset is that register's, clause by clause. -/
theorem memWriteActsByOffset : Obligations.MemWriteActsByOffset := by
  intro s v
  have write (r : Reg) {o : Host.Outcome State Fault Refusal} (h : writeReg r v s = o) :
      memWrite (regOffset r) v s = o := (memWrite_regOffset r v s).trans h
  exact ⟨fun off hoff => memWrite_of_readOnly hoff v s,
    fun i hd => write .cmd (writeReg_cmd_command hd s), fun e hd => write .cmd (writeReg_cmd_illegal hd s),
    write .err rfl,
    fun hv => write .key (writeReg_key_fits hv s), fun hv => write .key (writeReg_key_wide hv s),
    fun hv => write .din (writeReg_din_fits hv s), fun hv => write .din (writeReg_din_wide hv s),
    fun hb => (writeReg_pair_busy hb v).imp (write .spt) (write .sct),
    fun hb hv => (writeReg_pair_fits hb hv).imp (write .spt) (write .sct),
    fun hb hv => (writeReg_pair_wide hb hv).imp (write .spt) (write .sct),
    write .ie rfl, write .ip rfl⟩

/-- Settles O50: under the invariant a trial's key and its MATCH cell exist. -/
theorem invariantStatesNeverStop : Obligations.InvariantStatesNeverStop :=
  fun _ hinv => runs_of_trial_in_range hinv.scan.trial_in_range

/-- Settles O51: a step that faults does not run, so it is a trial that is out of range. -/
theorem onlyOutOfRangeTrialsFault : Obligations.OnlyOutOfRangeTrialsFault := by
  intro s f hfault
  have hstops : ¬ Runs s := by
    rintro ⟨t, ht⟩
    rw [hfault] at ht
    cases ht
  have hturn : scannersTurn s := by
    rcases step_turn_or_runs s with ⟨hturn, -⟩ | hruns
    · exact hturn
    · exact absurd hruns hstops
  obtain ⟨hb, hrange⟩ := Classical.not_imp.1 fun hin => hstops (runs_of_trial_in_range hin)
  exact ⟨hturn, hb, by omega⟩

end Sys2Proof.Proofs
end

section
/-! PROOFS. Encrypting and decrypting through the registers, with scanner turns between the accesses
(spec/43_block_cipher.md rule R176; spec/20_memory.md rules R77, R86). -/

namespace Sys2Proof.Machine

/-! ### The cipher -/

/-- The circuit run again with the subkeys swapped gives the block back (R176 (a)): IP meets IPINV in the middle,
and each round's XOR is undone by the same round. -/
theorem crypt_swapped_crypt {t : Tables} (h : t.ip.undoes t.ipinv = true) (block ka kb : Block) :
    crypt t (crypt t block ka kb) kb ka = block := by
  simp only [crypt, cryptStages, permute_undone h, left_append, right_append, xor_xor_cancel,
    left_append_right, permute_undoes h]

theorem decrypt_encrypt {t : Tables} (h : t.ip.undoes t.ipinv = true) (p : Block) (key : Key) :
    decrypt t (encrypt t p key) key = p :=
  crypt_swapped_crypt h p _ _

/-! ### The scanner's turns before an access -/

/-- The engine's part, ERR and the configuration are kept: a turn of the scanner touches none of them (R208). -/
def engineKept (s t : State) : Prop := t.cfg = s.cfg ∧ t.err = s.err ∧ sameEngine s t

theorem engineKept_refl (s : State) : engineKept s s := ⟨rfl, rfl, sameEngine_refl s⟩

theorem engineKept.trans {s t u : State} (hst : engineKept s t) (htu : engineKept t u) : engineKept s u := by
  obtain ⟨hcfg, herr, hkey, hdin, hdout, hk1, hk2, hkvalid, hlastop⟩ := hst
  simpa only [engineKept, sameEngine, hcfg, herr, hkey, hdin, hdout, hk1, hk2, hkvalid, hlastop] using htu

theorem TurnCase.keeps_engine {s t : State} (hc : TurnCase s t) : engineKept s t := by
  cases hc with
  | idle hb => exact engineKept_refl s
  | missed hb hk hm => simp [engineKept, sameEngine]
  | matched hb hk hm hcount => simp [engineKept, sameEngine]

theorem TurnCase.response {s t : State} (hc : TurnCase s t) : t.response = s.response := by
  cases hc with
  | idle hb => rfl
  | missed hb hk hm => simp
  | matched hb hk hm hcount => simp

/-- Any number of scanner turns from a state with the invariant: they read nothing. -/
theorem hostRun_turns {s : State} (h : StateInv s) (n : Nat) :
    ∃ u, hostRun (List.replicate n .trial) s = .next (u, []) ∧ StateInv u ∧ engineKept s u := by
  induction n generalizing s with
  | zero => exact ⟨s, rfl, h, engineKept_refl s⟩
  | succ n ih =>
    obtain ⟨t, ht⟩ := scannerTurn_next (s := { s with response := .none }) h.scan.trial_in_range
    have hc := scannerTurn_cases ht
    obtain ⟨u, hrun, hinv, hkept⟩ := ih (hc.keeps_inv (h.withPort _ _))
    refine ⟨u, ?_, hinv, hc.keeps_engine.trans hkept⟩
    rw [List.replicate_succ, hostRun_cons (e := .trial) (s := s) ht, hrun, hc.response]
    rfl

/-- The turns before the first access of a program, where they are safe. -/
theorem turnsSafe.first {turns : Nat → Nat} {s : State} (h : turnsSafe turns s) :
    ∃ u, hostRun (List.replicate (turns 0) .trial) s = .next (u, [])
      ∧ turnsSafe (fun n => turns (n + 1)) u ∧ engineKept s u := by
  rcases h with hinv | hnone
  · obtain ⟨u, hrun, hu, hkept⟩ := hostRun_turns hinv (turns 0)
    exact ⟨u, hrun, .inl hu, hkept⟩
  · exact ⟨s, by rw [hnone 0]; rfl, .inr fun n => hnone (n + 1), engineKept_refl s⟩

/-- Turns that are safe stay so where the invariant is kept. -/
theorem turnsSafe.imp {turns : Nat → Nat} {s t : State} (h : turnsSafe turns s)
    (hinv : StateInv s → StateInv t) : turnsSafe turns t :=
  Or.imp_left hinv h

/-! ### One access of a program, with the turns before it -/

section
variable {α : Type} {turns : Nat → Nat} {s : State}

/-- A read of a register in a program: it meets the engine's part, ERR and the configuration as they were. -/
theorem runProgram_rdThen_turns (h : turnsSafe turns s) (r : Reg) (next : Word → HostProgram α) :
    ∃ t, runProgram turns (rdThen r next) s = runProgram (fun n => turns (n + 1)) (next (readReg t r)) t
      ∧ turnsSafe (fun n => turns (n + 1)) t ∧ engineKept s t := by
  obtain ⟨u, hrun, hsafe, hkept⟩ := h.first
  have hport : readReg { u with response := .data (readReg u r) } r = readReg u r := by cases r <;> rfl
  refine ⟨{ u with response := .data (readReg u r) }, ?_, hsafe.imp fun hu => hu.withPort _ _, hkept⟩
  rw [runProgram_rdThen hrun, hport]

/-- A write to a register in a program, made in a state `u` that has the engine's part, ERR and the configuration
as they were. -/
theorem runProgram_wrThen_turns (h : turnsSafe turns s) (r : Reg) (v : Word) (next : HostProgram α) :
    ∃ u t, engineKept s u ∧ writeReg r v u = .next t
      ∧ runProgram turns (wrThen r v next) s = runProgram (fun n => turns (n + 1)) next t
      ∧ turnsSafe (fun n => turns (n + 1)) t := by
  obtain ⟨u, hrun, hsafe, hkept⟩ := h.first
  obtain ⟨t, ht, hc⟩ := memWrite_spec (regOffset r) v { u with response := .written }
  rw [memWrite_regOffset] at ht
  exact ⟨{ u with response := .written }, t, hkept, ht, runProgram_wrThen hrun ht,
    hsafe.imp fun hu => hc.keeps_inv (hu.withPort _ _)⟩

/-- A command in a program. -/
theorem runProgram_cmdThen_turns (h : turnsSafe turns s) (i : Instr) (next : HostProgram α) :
    ∃ u t, engineKept s u ∧ exec i u = .next t
      ∧ runProgram turns (cmdThen i next) s = runProgram (fun n => turns (n + 1)) next t
      ∧ turnsSafe (fun n => turns (n + 1)) t := by
  obtain ⟨u, t, hkept, hw, hrun, hsafe⟩ := runProgram_wrThen_turns h .cmd (encode i) next
  rw [writeReg_cmd_command (decode_encode_command i)] at hw
  exact ⟨u, t, hkept, hw, hrun, hsafe⟩

end

/-! ### One block through the registers -/

/-- ERR is 0, and the block has this configuration and this master key. -/
def readyWith (cfg : Config) (key : Key) (s : State) : Prop := s.cfg = cfg ∧ s.err = 0 ∧ s.key = key

theorem readyWith.kept {cfg : Config} {key : Key} {s t : State} (h : readyWith cfg key s)
    (hkept : engineKept s t) : readyWith cfg key t := by
  obtain ⟨hcfg, herr, hkey, -⟩ := hkept
  simpa only [readyWith, hcfg, herr, hkey] using h

/-- The command leaves in DOUT the function `f` of DIN under KEY. -/
def computes (i : Instr) (f : Tables → Block → Key → Block) : Prop :=
  ∀ {cfg : Config} {key : Key} {s t : State}, readyWith cfg key s → exec i s = .next t →
    readyWith cfg key t ∧ t.dout = f cfg.tables s.din key

theorem enc_computes : computes .enc encrypt := by
  rintro _ _ s t ⟨rfl, herr, rfl⟩ ht
  cases exec_cases ht with
  | dropped _ hi he => exact absurd herr he
  | enc he => exact ⟨⟨rfl, herr, rfl⟩, rfl⟩

theorem dec_computes : computes .dec decrypt := by
  rintro _ _ s t ⟨rfl, herr, rfl⟩ ht
  cases exec_cases ht with
  | dropped _ hi he => exact absurd herr he
  | dec he => exact ⟨⟨rfl, herr, rfl⟩, rfl⟩

/-- A key as an operand word fits KEY. -/
theorem writeReg_key_setWidth (key : Key) (s : State) :
    writeReg .key (key.setWidth 32) s = .next { s with key := key, kvalid := false, lastop := 0 } := by
  have hfits : (key.setWidth 32).toNat < 2 ^ 10 := by
    rw [BitVec.toNat_setWidth_of_le (by decide)]
    exact key.isLt
  rw [writeReg_key_fits hfits, BitVec.setWidth_setWidth_of_le key (by decide), BitVec.setWidth_eq]

/-- A block as an operand word fits DIN. -/
theorem writeReg_din_setWidth (b : Block) (s : State) :
    writeReg .din (b.setWidth 32) s = .next { s with din := b, lastop := 0 } := by
  have hfits : (b.setWidth 32).toNat < 2 ^ 8 := by
    rw [BitVec.toNat_setWidth_of_le (by decide)]
    exact b.isLt
  rw [writeReg_din_fits hfits, BitVec.setWidth_setWidth_of_le b (by decide), BitVec.setWidth_eq]

section
variable {α : Type} {turns : Nat → Nat} {s : State}

theorem runProgram_writeKey (h : turnsSafe turns s) (herr : s.err = 0) (key : Key) (next : HostProgram α) :
    ∃ t, runProgram turns (wrThen .key (key.setWidth 32) next) s
        = runProgram (fun n => turns (n + 1)) next t
      ∧ turnsSafe (fun n => turns (n + 1)) t ∧ readyWith s.cfg key t := by
  obtain ⟨u, t, ⟨hcfg, huerr, -⟩, hw, hrun, hsafe⟩ := runProgram_wrThen_turns h .key (key.setWidth 32) next
  rw [writeReg_key_setWidth] at hw
  cases hw
  exact ⟨_, hrun, hsafe, hcfg, huerr.trans herr, rfl⟩

/-- `WR DIN,b ; CMD i ; RD DOUT` reads the function of the block, wherever scanner turns fall (R171, R172). -/
theorem runProgram_block {cfg : Config} {key : Key} {i : Instr} {f : Tables → Block → Key → Block}
    (hf : computes i f) (h : turnsSafe turns s) (hs : readyWith cfg key s) (b : Block)
    (next : Word → HostProgram α) :
    ∃ t, runProgram turns (wrThen .din (b.setWidth 32) <| cmdThen i <| rdThen .dout next) s
        = runProgram (fun n => turns (n + 3)) (next ((f cfg.tables b key).setWidth 32)) t
      ∧ turnsSafe (fun n => turns (n + 3)) t ∧ readyWith cfg key t := by
  obtain ⟨u, t1, hu, hw, hrun1, hsafe1⟩ :=
    runProgram_wrThen_turns h .din (b.setWidth 32) (cmdThen i <| rdThen .dout next)
  rw [writeReg_din_setWidth] at hw
  cases hw
  obtain ⟨v, t2, hv, hexec, hrun2, hsafe2⟩ := runProgram_cmdThen_turns hsafe1 i (rdThen .dout next)
  obtain ⟨t3, hrun3, hsafe3, hkept⟩ := runProgram_rdThen_turns hsafe2 .dout next
  have hready : readyWith cfg key u := hs.kept hu
  have hwritten : readyWith cfg key { u with din := b, lastop := 0 } := hready
  obtain ⟨hready2, hdout⟩ := hf (hwritten.kept hv) hexec
  obtain ⟨-, -, -, hdin, -⟩ := hv
  have hready3 := hready2.kept hkept
  obtain ⟨-, -, -, -, hdout3, -⟩ := hkept
  have hword : readReg t3 .dout = (f cfg.tables b key).setWidth 32 := by
    rw [readReg, hdout3, hdout, hdin]
  refine ⟨t3, ?_, hsafe3, hready3⟩
  rw [hrun1, hrun2, hrun3, hword]

end

end Sys2Proof.Machine

namespace Sys2Proof.Proofs
open Sys2Proof Sys2Proof.Machine

/-- Settles O56: the key, then a block through ENC and the word read through DEC. -/
theorem registersRoundTrip : Obligations.RegistersRoundTrip := by
  intro s turns p key herr hsafe hundoes
  obtain ⟨t1, hkey, hsafe1, hready1⟩ := runProgram_writeKey hsafe herr key _
  obtain ⟨t2, henc, hsafe2, hready2⟩ := runProgram_block enc_computes hsafe1 hready1 p _
  obtain ⟨t3, hdec, -, -⟩ :=
    runProgram_block dec_computes hsafe2 hready2 (encrypt s.cfg.tables p key) _
  refine ⟨t3, ?_⟩
  rw [hkey, henc, hdec, decrypt_encrypt hundoes, runProgram_done]

end Sys2Proof.Proofs
end

section
/-! PROOFS. The words of the commands, the illegal words and the frame of the commands (spec/30_encoding.md rules
R100 to R104). -/

namespace Sys2Proof.Machine

/-! ### The decoder -/

/-- A word is illegal exactly when a reserved bit is set or its OP is 7 or more (R104). -/
theorem decode_illegal_iff {v : Word} :
    (∃ e, decode v = .illegal e) ↔ v.extractLsb' 4 28 ≠ 0 ∨ 7 ≤ (v.extractLsb' 0 4).toNat := by
  unfold decode reservedField opField
  by_cases hreserved : v.extractLsb' 4 28 = 0
  · rw [if_neg (not_not.2 hreserved)]
    split <;> simp_all
    omega
  · rw [if_pos hreserved]
    exact iff_of_true ⟨_, rfl⟩ (.inl hreserved)

/-- Every word is a command or illegal, and not both (R101). -/
theorem not_illegal_iff_command {v : Word} :
    (¬ ∃ e, decode v = .illegal e) ↔ ∃ i, decode v = .command i := by
  cases decode v <;> simp

/-- The seven commands, in the order of the opcode map (R102). -/
def commands : List Instr := [.nop, .keygen, .enc, .dec, .search, .abort, .srst]

theorem mem_commands (i : Instr) : i ∈ commands := by cases i <;> decide

/-- The words that decode to a command are the words of the seven commands. -/
theorem command_iff_mem_words {v : Word} : (∃ i, decode v = .command i) ↔ v ∈ commands.map encode := by
  rw [List.mem_map]
  constructor
  · rintro ⟨i, hi⟩
    exact ⟨i, mem_commands i, (eq_encode_of_decode hi).symm⟩
  · rintro ⟨i, -, rfl⟩
    exact ⟨i, decode_encode_command i⟩

/-- All words but seven are illegal (R104). -/
theorem card_illegal_words :
    (Finset.univ.filter fun v : Word =>
      v.extractLsb' 4 28 ≠ 0 ∨ 7 ≤ (v.extractLsb' 0 4).toNat).card = 2 ^ 32 - 7 := by
  have hcompl : (Finset.univ.filter fun v : Word =>
      v.extractLsb' 4 28 ≠ 0 ∨ 7 ≤ (v.extractLsb' 0 4).toNat) = ((commands.map encode).toFinset)ᶜ := by
    ext v
    rw [Finset.mem_filter_univ, Finset.mem_compl, List.mem_toFinset, ← command_iff_mem_words,
      ← not_illegal_iff_command, not_not, decode_illegal_iff]
  have hseven : (commands.map encode).toFinset.card = 7 := by decide
  have hall : Fintype.card Word = 2 ^ 32 := by rw [← FinEnum.card_eq_fintypeCard, FinEnum.card_bitVec]
  rw [hcompl, Finset.card_compl, hseven, hall]

theorem instr?_eq_some_iff {d : Decoded} {i : Instr} : d.instr? = some i ↔ d = .command i := by
  cases d <;> simp [Decoded.instr?]

/-- A word of a table row that decodes is a word that CMD decodes (log entry 9). -/
theorem decode_of_decodeTableWord {w : Nat} {i : Instr} (h : decodeTableWord 32 w = some i) :
    decode (BitVec.ofNat 32 (w % 2 ^ 32)) = .command i := by
  have hword : tableWord 32 w = some (BitVec.ofNat 32 (w % 2 ^ 32)) :=
    if_pos (Nat.mod_lt w (by decide))
  rw [decodeTableWord, hword, Option.bind_some] at h
  exact instr?_eq_some_iff.1 h

/-! ### The frame of the commands -/

/-- The registers that a command may change (R103, the table's column "writes"). -/
def commandWrites : Instr → List Reg
  | .nop => []
  | .keygen => [.status, .k1, .k2]
  | .enc => [.status, .dout, .k1, .k2]
  | .dec => [.status, .dout, .k1, .k2]
  | .search => [.status, .err, .kcnt, .mcount, .progress]
  | .abort => [.status]
  | .srst => [.status, .err, .key, .din, .dout, .k1, .k2, .spt, .sct, .kcnt, .mcount, .progress, .ie, .ip]

/-- A command leaves every register that is not in its list. -/
theorem ExecCase.readReg_frame {s t : State} {i : Instr} {r : Reg} (hc : ExecCase s i t)
    (hr : r ∉ commandWrites i) : readReg t r = readReg s r := by
  cases hc with
  | nop => rfl
  | dropped => rfl
  | abortIdle => rfl
  | _ => cases r <;> simp_all [commandWrites, readReg]

/-- Only SRST empties MATCH; SEARCH hides them and keeps them (log entry 7). -/
theorem ExecCase.matchMem_frame {s t : State} {i : Instr} (hc : ExecCase s i t) (hi : i ≠ .srst) :
    t.matchMem = s.matchMem := by
  cases hc with
  | srst => exact absurd rfl hi
  | _ => rfl

/-- Only SEARCH and SRST change MCOUNT. -/
theorem ExecCase.mcount_frame {s t : State} {i : Instr} (hc : ExecCase s i t) (hsearch : i ≠ .search)
    (hi : i ≠ .srst) : t.mcount = s.mcount := by
  cases hc with
  | search => exact absurd rfl hsearch
  | srst => exact absurd rfl hi
  | _ => rfl

theorem ExecCase.response {s t : State} {i : Instr} (hc : ExecCase s i t) : t.response = s.response := by
  cases hc <;> rfl

/-- What a MATCH entry reads as is a function of MATCH and MCOUNT (R37). -/
theorem readMatch_congr {s t : State} (hm : t.matchMem = s.matchMem) (hc : t.mcount = s.mcount)
    (i : BitVec 10) : readMatch t i = readMatch s i := by
  simp only [readMatch, matchCell, hm, hc]

/-- The word a read returns is that of the register or of the MATCH entry that the offset names (R81). -/
theorem memRead_word_congr {off : Offset} {s t : State}
    (hreg : ∀ r, off = regOffset r → readReg t r = readReg s r)
    (hmatch : ∀ i, targetOf off = .matchEntry i → readMatch t i = readMatch s i) :
    (memRead off t).1 = (memRead off s).1 := by
  unfold memRead
  cases ht : targetOf off with
  | reg r => exact hreg r (targetOf_eq_reg.1 ht)
  | matchEntry i => exact hmatch i ht
  | unmapped => rfl
  | misaligned => rfl

/-- MATCH entries stand at 0x1000 and above (R74). -/
theorem le_of_targetOf_matchEntry {off : Offset} {i : BitVec 10} (h : targetOf off = .matchEntry i) :
    0x1000 ≤ off.toNat := by
  unfold targetOf at h
  split at h
  · cases h
  · split at h
    · cases h
    · split at h
      · cases h
      · omega

/-- A command other than SRST leaves what is read at every offset outside its list, where it leaves MCOUNT or
the offset is no MATCH entry's. -/
theorem ExecCase.memRead_frame {s t : State} {i : Instr} {off : Offset} (hc : ExecCase s i t)
    (hi : i ≠ .srst) (hoff : off ∉ (commandWrites i).map regOffset)
    (hmatch : i ≠ .search ∨ off.toNat < 0x1000) : (memRead off t).1 = (memRead off s).1 := by
  refine memRead_word_congr (fun r hr => ?_) (fun j hj => ?_)
  · subst hr
    exact hc.readReg_frame fun hmem => hoff (List.mem_map_of_mem hmem)
  · have hsearch : i ≠ .search :=
      hmatch.resolve_right (Nat.not_lt.2 (le_of_targetOf_matchEntry hj))
    exact readMatch_congr (hc.matchMem_frame hi) (hc.mcount_frame hsearch hi) j

end Sys2Proof.Machine

namespace Sys2Proof.Proofs
open Sys2Proof Sys2Proof.Machine

/-- Settles O1. -/
theorem decodeAndEncodeAgree : Obligations.DecodeAndEncodeAgree :=
  ⟨fun i _ => decode_encode_command i, fun _ _ hd => eq_encode_of_decode hd⟩

/-- Settles O2: the first seven words are the encodings of the commands. -/
theorem opcodeMapWordsDecode : Obligations.OpcodeMapWordsDecode :=
  ⟨decode_encode_command .nop, decode_encode_command .keygen, decode_encode_command .enc,
    decode_encode_command .dec, decode_encode_command .search, decode_encode_command .abort,
    decode_encode_command .srst, by decide, by decide, by decide, by decide⟩

/-- Settles O3: an illegal word is one that does not decode, and the words that do are seven. -/
theorem illegalWordsRaiseIllcmdOnly : Obligations.IllegalWordsRaiseIllcmdOnly := by
  refine ⟨fun s v hv => ?_, card_illegal_words⟩
  obtain ⟨e, hd⟩ := decode_illegal_iff.2 hv
  exact (memWrite_regOffset .cmd v s).trans (writeReg_cmd_illegal hd s)

/-- Settles O5: the placed word is the write to CMD that the next step takes off the schedule. -/
theorem placedWordRunsNext : Obligations.PlacedWordRunsNext := by
  intro s w i _ hd
  calc step (s.withFetchWord 32 w)
      = runEvent (wr .cmd (BitVec.ofNat 32 (w % 2 ^ 32))) { s with response := .none } :=
        step_of_schedule_cons rfl
    _ = runCommand (BitVec.ofNat 32 (w % 2 ^ 32)) { s with response := .written } := runEvent_wr .cmd _ _
    _ = exec i { s with response := .written } := runCommand_of_decode (decode_of_decodeTableWord hd) _

/-- Settles O16: each clause is the frame of the command, outside its list of registers. -/
theorem commandsChangeOnlyTheirWords : Obligations.CommandsChangeOnlyTheirWords := by
  intro s t i off hexec
  have hc := exec_cases hexec
  refine ⟨?nop, ?keygen, ?crypt, ?search, ?cells, ?abort, hc.cfg_and_schedule.1, hc.cfg_and_schedule.2,
    hc.response⟩
  case nop =>
    rintro rfl
    exact hc.memRead_frame (by decide) List.not_mem_nil (.inl (by decide))
  case keygen =>
    rintro rfl hoff
    exact hc.memRead_frame (by decide) hoff (.inl (by decide))
  case crypt =>
    rintro (rfl | rfl) hoff
    · exact hc.memRead_frame (by decide) hoff (.inl (by decide))
    · exact hc.memRead_frame (by decide) hoff (.inl (by decide))
  case search =>
    rintro rfl hlow hoff
    exact hc.memRead_frame (by decide) hoff (.inr hlow)
  case cells =>
    rintro rfl j
    simp only [matchCell, hc.matchMem_frame (by decide)]
  case abort =>
    rintro rfl hoff
    exact hc.memRead_frame (by decide) (fun hmem => hoff (List.mem_singleton.1 hmem)) (.inl (by decide))

end Sys2Proof.Proofs
end

section
/-! PROOFS. Rules for the programs of the host with scanner turns between the accesses (spec/20_memory.md rules R77,
R86); the engine's calls and what a failed call reports (spec/30_encoding.md rule R108, spec/70_reset_and_hazards.md
rule R265). -/

namespace Sys2Proof.Machine

/-! ### The scanner's turns before an access -/

/-- `ScannerTurns n s u`: `u` is `s` after `n` turns of the scanner, but for the port's answer. -/
inductive ScannerTurns : Nat → State → State → Prop
  | none (s : State) (r : Response) : ScannerTurns 0 s { s with response := r }
  | turn {n : Nat} {s t u : State} (hc : TurnCase { s with response := .none } t) (h : ScannerTurns n t u) :
    ScannerTurns (n + 1) s u

/-- A run on trial slots is that many turns. -/
theorem scannerTurns_of_hostRun {n : Nat} {s u : State}
    (h : hostRun (List.replicate n .trial) s = .next (u, [])) (r : Response) :
    ScannerTurns n s { u with response := r } := by
  induction n generalizing s with
  | zero => cases h; exact .none _ r
  | succ n ih =>
    cases ht : scannerTurn { s with response := .none } with
    | fault f =>
      have hstep : step { s with schedule := .trial :: s.schedule } = .fault f := ht
      simp [List.replicate_succ, hostRun, hstep, andThen] at h
    | refused x =>
      have hstep : step { s with schedule := .trial :: s.schedule } = .refused x := ht
      simp [List.replicate_succ, hostRun, hstep, andThen] at h
    | next t =>
      have hc := scannerTurn_cases ht
      refine .turn hc (ih ?_)
      rw [List.replicate_succ, hostRun_cons (e := .trial) (s := s) ht, hc.response] at h
      cases hrun : hostRun (List.replicate n .trial) t with
      | next a => simpa [hrun, responseWords] using h
      | fault f => simp [hrun, andThen] at h
      | refused x => simp [hrun, andThen] at h

/-- A turn of the scanner keeps `P`, and `P` does not speak of the port's answer. -/
structure TurnStable (P : State → Prop) : Prop where
  turn : ∀ {s t : State}, TurnCase s t → P s → P t
  port : ∀ {s : State} (r : Response), P s → P { s with response := r }

theorem TurnStable.turns {P : State → Prop} (hP : TurnStable P) {n : Nat} {s u : State}
    (h : ScannerTurns n s u) (hs : P s) : P u := by
  induction h with
  | none s r => exact hP.port r hs
  | turn hc _ ih => exact ih (hP.turn hc (hP.port .none hs))

/-- The turns touch neither the engine nor ERR nor the configuration (R208). -/
theorem ScannerTurns.engineKept {n : Nat} {s u : State} (h : ScannerTurns n s u) : engineKept s u :=
  TurnStable.turns (P := Machine.engineKept s)
    ⟨fun hc hs => hs.trans hc.keeps_engine, fun _ hs => hs⟩ h (engineKept_refl s)

/-- The four commands that the lock-out drops change nothing (R238). -/
theorem exec_locked {i : Instr} {s : State} (he : s.err ≠ 0)
    (hi : i = .keygen ∨ i = .enc ∨ i = .dec ∨ i = .search) : exec i s = .next s := by
  rcases hi with rfl | rfl | rfl | rfl <;>
    exact congrArg Host.Outcome.next (unlessLocked_dropped _ he)

/-! ### Rules for programs -/

/-- Where its turns are safe, the program runs from `s` without a stop, and `Q` holds of its last state and its
answer. -/
def Yields {α : Type} (turns : Nat → Nat) (prog : HostProgram α) (s : State) (Q : State → α → Prop) : Prop :=
  turnsSafe turns s → ∃ t a, runProgram turns prog s = .next (t, a) ∧ Q t a

section
variable {α : Type} {turns : Nat → Nat} {s : State} {Q : State → α → Prop}

theorem Yields.done {a : α} (h : Q s a) : Yields turns (.done a) s Q := fun _ => ⟨s, a, rfl, h⟩

/-- The rule of a read: the word is the register's in the state the turns end in. -/
theorem Yields.read {r : Reg} {next : Word → HostProgram α}
    (h : ∀ u, ScannerTurns (turns 0) s u → Yields (fun n => turns (n + 1)) (next (readReg u r)) u Q) :
    Yields turns (rdThen r next) s Q := by
  intro hsafe
  obtain ⟨u, hrun, hsafe', -⟩ := hsafe.first
  have hport : readReg { u with response := .data (readReg u r) } r = readReg u r := by cases r <;> rfl
  rw [runProgram_rdThen hrun, ← hport]
  exact h _ (scannerTurns_of_hostRun hrun _) (hsafe'.imp fun hu => hu.withPort _ _)

/-- The rule of a read of a MATCH entry. -/
theorem Yields.readMatch {i : BitVec 10} {next : Word → HostProgram α}
    (h : ∀ u, ScannerTurns (turns 0) s u → Yields (fun n => turns (n + 1)) (next (readMatch u i)) u Q) :
    Yields turns (.read (matchOffset i) next) s Q := by
  intro hsafe
  obtain ⟨u, hrun, hsafe', -⟩ := hsafe.first
  have haccess := hostRun_cons (es := []) (runEvent_rdMatch i { u with response := .none })
  have hall := hostRun_append (bs := [rdMatch i]) hrun
  rw [haccess, hostRun_nil, andThen_next, andThen_next] at hall
  have hnext : runProgram turns (.read (matchOffset i) next) s
      = runProgram (fun n => turns (n + 1)) (next (Machine.readMatch u i))
          { u with response := .data (Machine.readMatch u i) } := by
    change andThen (hostRun (List.replicate (turns 0) .trial ++ [rdMatch i]) s) _ = _
    rw [hall]
    rfl
  rw [hnext]
  exact h { u with response := .data (Machine.readMatch u i) } (scannerTurns_of_hostRun hrun _)
    (hsafe'.imp fun hu => hu.withPort _ _)

/-- The rule of a write: it meets the state the turns end in. -/
theorem Yields.write {r : Reg} {v : Word} {next : HostProgram α}
    (h : ∀ u t, ScannerTurns (turns 0) s u → writeReg r v u = .next t →
      Yields (fun n => turns (n + 1)) next t Q) : Yields turns (wrThen r v next) s Q := by
  intro hsafe
  obtain ⟨u, hrun, hsafe', -⟩ := hsafe.first
  obtain ⟨t, ht, hc⟩ := memWrite_spec (regOffset r) v { u with response := .written }
  rw [memWrite_regOffset] at ht
  rw [runProgram_wrThen hrun ht]
  exact h _ t (scannerTurns_of_hostRun hrun _) ht (hsafe'.imp fun hu => hc.keeps_inv (hu.withPort _ _))

/-- The rule of a command. -/
theorem Yields.command {i : Instr} {next : HostProgram α}
    (h : ∀ u t, ScannerTurns (turns 0) s u → exec i u = .next t →
      Yields (fun n => turns (n + 1)) next t Q) : Yields turns (cmdThen i next) s Q :=
  Yields.write fun u t hu hw => h u t hu ((writeReg_cmd_command (decode_encode_command i) u).symm.trans hw)

/-- The rule of a look at `irq`. -/
theorem Yields.sample {next : Bool → HostProgram α}
    (h : ∀ u, ScannerTurns (turns 0) s u → Yields (fun n => turns (n + 1)) (next (irq u)) u Q) :
    Yields turns (.sample next) s Q := by
  intro hsafe
  obtain ⟨u, hrun, hsafe', -⟩ := hsafe.first
  rw [runProgram_sample hrun]
  exact h u (scannerTurns_of_hostRun hrun u.response) hsafe'

/-- The rule of a write of a key that fits (R22). -/
theorem Yields.writeKey {key : Key} {next : HostProgram α} (herr : s.err = 0)
    (h : ∀ t, readyWith s.cfg key t → Yields (fun n => turns (n + 1)) next t Q) :
    Yields turns (wrThen .key (key.setWidth 32) next) s Q := by
  intro hsafe
  obtain ⟨t, hrun, hsafe', hready⟩ := runProgram_writeKey hsafe herr key next
  rw [hrun]
  exact h t hready hsafe'

end

/-! ### The checks on STATUS -/

/-- The flags that a host program checks stand at bits of their own in STATUS (R31). -/
theorem statusWord_fields (s : State) :
    kvalidBit (statusWord s) = s.kvalid ∧ lastopField (statusWord s) = s.lastop
      ∧ errAnyBit (statusWord s) = errAny s ∧ (statusWord s).getLsbD 0 = s.sbusy
      ∧ (statusWord s).getLsbD 1 = s.sdone := by
  have hfields : ∀ (busy done aborted valid any : Bool) (op : BitVec 2),
      let word := flagAt busy 0 ||| flagAt done 1 ||| flagAt aborted 2 ||| flagAt valid 3
        ||| (op.setWidth 32 <<< 4) ||| flagAt any 6
      kvalidBit word = valid ∧ lastopField word = op ∧ errAnyBit word = any
        ∧ word.getLsbD 0 = busy ∧ word.getLsbD 1 = done := by
    decide
  exact hfields ..

theorem errAny_of_zero {s : State} (h : s.err = 0) : errAny s = false := by simp [errAny, h]

theorem errAny_of_ne_zero {s : State} (h : s.err ≠ 0) : errAny s = true := bne_iff_ne.2 h

/-- A register's word cut back to the register's width is the register (R83). -/
theorem setWidth_setWidth_word {w : Nat} (v : BitVec w) (h : w ≤ 32) : (v.setWidth 32).setWidth w = v := by
  rw [BitVec.setWidth_setWidth_of_le v h, BitVec.setWidth_eq]

/-! ### The engine's calls with ERR = 0 -/

section
variable {turns : Nat → Nat} {s : State}

/-- KEYGEN's call passes its check and reads the subkeys of its operand (R146). -/
theorem yields_generateSubkeys (herr : s.err = 0) (key : Key) :
    Yields turns (generateSubkeys key) s fun _ a => a = .ok (keySchedule s.cfg.tables key) := by
  refine .writeKey herr fun t1 hready => .command fun u t2 hu hexec => .read fun t3 hstatus => ?_
  obtain ⟨hcfg, huerr, hkey⟩ := hready.kept hu.engineKept
  have hkeygen : t2 = deriveSubkeys u := by
    cases exec_cases hexec with
    | dropped _ hi he => exact absurd huerr he
    | keygen he => rfl
  subst hkeygen
  obtain ⟨-, herr3, -, -, -, hk1, hk2, hkvalid, -⟩ := hstatus.engineKept
  obtain ⟨hvalid, -, hany, -⟩ := statusWord_fields t3
  have hcheck : (kvalidBit (readReg t3 .status) && !errAnyBit (readReg t3 .status)) = true := by
    rw [readReg, hvalid, hany, hkvalid, errAny_of_zero (herr3.trans huerr)]
    rfl
  rw [if_pos hcheck]
  refine .read fun t4 hread1 => .read fun t5 hread2 => .done ?_
  obtain ⟨-, -, -, -, -, hk1', hk2', -⟩ := hread1.engineKept
  obtain ⟨-, -, -, -, -, -, hk2'', -⟩ := hread2.engineKept
  rw [readReg, readReg, setWidth_setWidth_word _ (by decide), setWidth_setWidth_word _ (by decide), hk1', hk1,
    hk2'', hk2', hk2, deriveSubkeys_k1, deriveSubkeys_k2, hcfg, hkey]

/-- With ERR = 0 the command leaves LASTOP at `op` (R171, R172). -/
def LeavesLastop (i : Instr) (op : BitVec 2) : Prop :=
  ∀ {s t : State}, s.err = 0 → exec i s = .next t → t.lastop = op

theorem enc_leavesLastop : LeavesLastop .enc 1 := by
  intro s t herr ht
  cases exec_cases ht with
  | dropped _ hi he => exact absurd herr he
  | enc he => rfl

theorem dec_leavesLastop : LeavesLastop .dec 2 := by
  intro s t herr ht
  cases exec_cases ht with
  | dropped _ hi he => exact absurd herr he
  | dec he => rfl

/-- A block's call passes its check and reads the function of its operands (R171, R172). -/
theorem yields_blockCall {i : Instr} {op : BitVec 2} {f : Tables → Block → Key → Block} (hf : computes i f)
    (hop : LeavesLastop i op) (herr : s.err = 0) (b : Block) (key : Key) :
    Yields turns (blockCall i op (b.setWidth 32) (key.setWidth 32)) s fun _ a =>
      a = .ok (f s.cfg.tables b key) := by
  refine .writeKey herr fun t1 hready => .write fun u t2 hu hw => .command fun v t3 hv hexec =>
    .read fun t4 hstatus => ?_
  rw [writeReg_din_setWidth] at hw
  cases hw
  have hready1 : readyWith s.cfg key u := hready.kept hu.engineKept
  have hready2 : readyWith s.cfg key { u with din := b, lastop := 0 } := hready1
  have hready3 : readyWith s.cfg key v := hready2.kept hv.engineKept
  obtain ⟨⟨hcfg, herr3, hkey⟩, hdout⟩ := hf hready3 hexec
  obtain ⟨-, hverr, -⟩ := hready3
  have hlastop : t3.lastop = op := hop hverr hexec
  obtain ⟨-, -, -, hdin, -⟩ := hv.engineKept
  obtain ⟨-, herr4, -, -, hdout4, -, -, -, hlastop4⟩ := hstatus.engineKept
  obtain ⟨-, hfield, hany, -⟩ := statusWord_fields t4
  have hcheck : (lastopField (readReg t4 .status) == op && !errAnyBit (readReg t4 .status)) = true := by
    rw [readReg, hfield, hany, hlastop4, hlastop, errAny_of_zero (herr4.trans herr3), beq_self_eq_true]
    rfl
  rw [if_pos hcheck]
  refine .read fun t5 hread => .done ?_
  obtain ⟨-, -, -, -, hdout5, -⟩ := hread.engineKept
  rw [readReg, setWidth_setWidth_word _ (by decide), hdout5, hdout4, hdout, hdin]

end

/-! ### Failed calls -/

section
variable {α : Type} {P : State → Prop}

/-- From every state with `P` the program fails as a call does: it reports the ERR of a state with `P` and
acknowledges it (R265). -/
def FailsFrom (P : State → Prop) (prog : HostProgram (Checked α)) : Prop :=
  ∀ turns s, P s → Yields turns prog s fun t a => t.err = 0 ∧ ∃ u, P u ∧ a = .error (callError u.err)

/-- The line "fails" of R108 does so. -/
theorem failCall_failsFrom (hP : TurnStable P) : FailsFrom P (failCall (α := α)) := by
  intro turns s hs
  refine .read fun u hu => .write fun _ t hv hw => .done ?_
  cases hw
  refine ⟨?_, u, hP.turns hu hs, ?_⟩
  · simp [clearOnes]
  · rw [readReg, setWidth_setWidth_word _ (by decide)]

/-- A status check with ERR not 0 fails, whatever flag it asks for. -/
theorem statusCheck_failsFrom (hP : TurnStable P) (herr : ∀ s, P s → s.err ≠ 0) (flag : Word → Bool)
    (passed : Word → HostProgram (Checked α)) :
    FailsFrom P (rdThen .status fun status =>
      if flag status && !errAnyBit status then passed status else failCall) := by
  intro turns s hs
  refine .read fun u hu => ?_
  have hu' : P u := hP.turns hu hs
  obtain ⟨-, -, hany, -⟩ := statusWord_fields u
  have hcheck : (flag (readReg u .status) && !errAnyBit (readReg u .status)) ≠ true := by
    simp [readReg, hany, errAny_of_ne_zero (herr u hu')]
  rw [if_neg hcheck]
  exact failCall_failsFrom hP _ u hu'

/-- A write that keeps `P` before a program that fails. -/
theorem wrThen_failsFrom {r : Reg} {v : Word} {next : HostProgram (Checked α)} (hP : TurnStable P)
    (hw : ∀ s t, P s → writeReg r v s = .next t → P t) (hnext : FailsFrom P next) :
    FailsFrom P (wrThen r v next) :=
  fun _ _ hs => .write fun u t hu ht => hnext _ t (hw u t (hP.turns hu hs) ht)

/-- A command that the lock-out drops, before a program that fails (R238). -/
theorem cmdThen_failsFrom {i : Instr} {next : HostProgram (Checked α)} (hP : TurnStable P)
    (herr : ∀ s, P s → s.err ≠ 0) (hi : i = .keygen ∨ i = .enc ∨ i = .dec ∨ i = .search)
    (hnext : FailsFrom P next) : FailsFrom P (cmdThen i next) := by
  intro turns s hs
  refine .command fun u t hu hexec => ?_
  have hu' : P u := hP.turns hu hs
  rw [exec_locked (herr u hu') hi] at hexec
  cases hexec
  exact hnext _ u hu'

end

/-! ### ERR along a failing call -/

theorem errIs_stable (e : BitVec 4) : TurnStable fun s => s.err = e where
  turn hc hs := by
    obtain ⟨-, herr, -⟩ := hc.keeps_engine
    exact herr.trans hs
  port _ hs := hs

/-- Operands that fit leave ERR as it is (R22, R23). -/
theorem writeReg_key_err {s t : State} {key : Key} (hw : writeReg .key (key.setWidth 32) s = .next t) :
    t.err = s.err := by
  rw [writeReg_key_setWidth] at hw
  cases hw
  rfl

theorem writeReg_din_err {s t : State} {b : Block} (hw : writeReg .din (b.setWidth 32) s = .next t) :
    t.err = s.err := by
  rw [writeReg_din_setWidth] at hw
  cases hw
  rfl

/-- The engine's calls fail with the ERR they were made with. -/
theorem generateSubkeys_failsFrom {e : BitVec 4} (he : e ≠ 0) (key : Key) :
    FailsFrom (fun s => s.err = e) (generateSubkeys key) := by
  have hP := errIs_stable e
  have herr : ∀ s : State, s.err = e → s.err ≠ 0 := fun _ hs => hs ▸ he
  exact wrThen_failsFrom hP (fun s t hs hw => (writeReg_key_err hw).trans hs)
    (cmdThen_failsFrom hP herr (by decide) (statusCheck_failsFrom hP herr kvalidBit _))

theorem blockCall_failsFrom {e : BitVec 4} (he : e ≠ 0) {i : Instr} (hi : i = .enc ∨ i = .dec)
    (op : BitVec 2) (b : Block) (key : Key) :
    FailsFrom (fun s => s.err = e) (blockCall i op (b.setWidth 32) (key.setWidth 32)) := by
  have hP := errIs_stable e
  have herr : ∀ s : State, s.err = e → s.err ≠ 0 := fun _ hs => hs ▸ he
  exact wrThen_failsFrom hP (fun s t hs hw => (writeReg_key_err hw).trans hs)
    (wrThen_failsFrom hP (fun s t hs hw => (writeReg_din_err hw).trans hs)
      (cmdThen_failsFrom hP herr (by tauto)
        (statusCheck_failsFrom hP herr (fun status => lastopField status == op) _)))

/-- ERR as `bruteForce`, called in `s`, may find it: as it was, or with the BUSY that the writes to SPT and SCT
raise while a scan runs (R27). -/
def ErringSearch (s u : State) : Prop :=
  (u.sbusy = true → s.sbusy = true) ∧ (u.err = s.err ∨ s.sbusy = true ∧ u.err = s.err ||| 0b0100)

/-- No turn of the scanner starts a scan. -/
theorem TurnCase.busy_before {s t : State} (hc : TurnCase s t) (ht : t.sbusy = true) : s.sbusy = true := by
  cases hc with
  | idle hb => exact ht
  | missed hb hk hm => exact hb
  | matched hb hk hm hcount => exact hb

theorem erringSearch_stable (s : State) : TurnStable (ErringSearch s) where
  turn hc hs := by
    obtain ⟨hbusy, herr⟩ := hs
    obtain ⟨-, hkept, -⟩ := hc.keeps_engine
    exact ⟨fun ht => hbusy (hc.busy_before ht), hkept ▸ herr⟩
  port _ hs := hs

theorem ErringSearch.err_ne_zero {s u : State} (h : ErringSearch s u) (he : s.err ≠ 0) : u.err ≠ 0 := by
  have hbusy : ∀ e : BitVec 4, e ||| 0b0100 ≠ 0 := by decide
  obtain ⟨-, herr | ⟨-, herr⟩⟩ := h
  · rwa [herr]
  · exact herr ▸ hbusy s.err

/-- Raising BUSY while a scan runs, once or again. -/
theorem ErringSearch.raised {s u : State} (h : ErringSearch s u) (hb : u.sbusy = true) :
    ErringSearch s (raiseError .busy u) := by
  obtain ⟨hbusy, herr⟩ := h
  refine ⟨hbusy, .inr ⟨hbusy hb, ?_⟩⟩
  have hbit : errorBit .busy = 0b0100 := rfl
  rw [raiseError_err, hbit]
  rcases herr with herr | ⟨-, herr⟩
  · rw [herr]
  · rw [herr, BitVec.or_assoc, BitVec.or_self]

/-- While no scan runs a block is stored in SPT or SCT (R27). -/
theorem writeReg_pair_block {s : State} (hb : s.sbusy = false) (b : Block) :
    writeReg .spt (b.setWidth 32) s = .next { s with spt := b }
      ∧ writeReg .sct (b.setWidth 32) s = .next { s with sct := b } := by
  have hfits : (b.setWidth 32).toNat < 2 ^ 8 := by
    rw [BitVec.toNat_setWidth_of_le (by decide)]
    exact b.isLt
  have hpair := writeReg_pair_fits hb hfits
  rwa [setWidth_setWidth_word b (by decide)] at hpair

theorem ErringSearch.writePair {r : Reg} (hr : r = .spt ∨ r = .sct) {b : Block} {s u t : State}
    (h : ErringSearch s u) (hw : writeReg r (b.setWidth 32) u = .next t) : ErringSearch s t := by
  cases hb : u.sbusy with
  | true =>
    obtain ⟨hspt, hsct⟩ := writeReg_pair_busy hb (b.setWidth 32)
    rcases hr with rfl | rfl
    · cases hspt.symm.trans hw; exact h.raised hb
    · cases hsct.symm.trans hw; exact h.raised hb
  | false =>
    obtain ⟨hspt, hsct⟩ := writeReg_pair_block hb b
    rcases hr with rfl | rfl
    · cases hspt.symm.trans hw; exact h
    · cases hsct.symm.trans hw; exact h

theorem bruteForce_failsFrom {s : State} (he : s.err ≠ 0) (wait : Wait) (polls : Nat) (p c : Block) :
    FailsFrom (ErringSearch s) (bruteForce wait polls p c) := by
  have hP := erringSearch_stable s
  have herr : ∀ u, ErringSearch s u → u.err ≠ 0 := fun _ hu => hu.err_ne_zero he
  refine wrThen_failsFrom hP (fun u t hu hw => ?_) <|
    wrThen_failsFrom hP (fun u t hu hw => hu.writePair (.inl rfl) hw) <|
    wrThen_failsFrom hP (fun u t hu hw => hu.writePair (.inr rfl) hw) <|
    cmdThen_failsFrom hP herr (by decide) (statusCheck_failsFrom hP herr searchBits _)
  cases hw
  exact hu

end Sys2Proof.Machine

namespace Sys2Proof.Proofs
open Sys2Proof Sys2Proof.Machine

/-- Settles O52: each program passes its check, since ERR is 0 and no scanner turn touches the engine. -/
theorem hostSequencesReturnTheFunctions : Obligations.HostSequencesReturnTheFunctions := by
  intro s turns b key herr hsafe
  refine ⟨?subkeys, ?encrypt, ?decrypt⟩
  case subkeys =>
    obtain ⟨t, _, hrun, rfl⟩ := yields_generateSubkeys herr key hsafe
    exact ⟨t, hrun⟩
  case encrypt =>
    obtain ⟨t, _, hrun, rfl⟩ := yields_blockCall enc_computes enc_leavesLastop herr b key hsafe
    exact ⟨t, hrun⟩
  case decrypt =>
    obtain ⟨t, _, hrun, rfl⟩ := yields_blockCall dec_computes dec_leavesLastop herr b key hsafe
    exact ⟨t, hrun⟩

/-- Settles O53: the lock-out drops the command, so every check fails. -/
theorem failedCallsReportTheError : Obligations.FailedCallsReportTheError := by
  intro s turns wait polls b c key he hsafe
  refine ⟨?subkeys, ?encrypt, ?decrypt, ?search, callError_width, callError_other⟩
  case subkeys =>
    obtain ⟨t, _, hrun, ht, u, hu, rfl⟩ := generateSubkeys_failsFrom he key turns s rfl hsafe
    exact ⟨t, hu ▸ hrun, ht⟩
  case encrypt =>
    obtain ⟨t, _, hrun, ht, u, hu, rfl⟩ := blockCall_failsFrom he (.inl rfl) 1 b key turns s rfl hsafe
    exact ⟨t, hu ▸ hrun, ht⟩
  case decrypt =>
    obtain ⟨t, _, hrun, ht, u, hu, rfl⟩ := blockCall_failsFrom he (.inr rfl) 2 b key turns s rfl hsafe
    exact ⟨t, hu ▸ hrun, ht⟩
  case search =>
    obtain ⟨t, _, hrun, ht, u, ⟨-, herr⟩, rfl⟩ :=
      bruteForce_failsFrom he wait polls b c turns s ⟨id, .inl rfl⟩ hsafe
    exact ⟨t, u.err, hrun, ht, herr⟩

end Sys2Proof.Proofs
end

section
/-! PROOFS. The host program of the key search (spec/30_encoding.md rule R108, spec/70_reset_and_hazards.md rules
R264, R265; spec/45_key_search.md rules R204, R205, R209). -/

namespace Sys2Proof.Machine

/-! ### A scan as its host meets it -/

/-- A scan of the pair `(p, c)` that runs or is done, with ERR = 0 and the configuration and IE of `s0`. -/
structure ScanFor (s0 : State) (p c : Block) (s : State) : Prop where
  pair : PairInv false s
  cfg : s.cfg = s0.cfg
  ie : s.ie = s0.ie
  err : s.err = 0
  spt : s.spt = p
  sct : s.sct = c
  active : s.sbusy = true ∨ s.sdone = true

/-- The scanner's turn touches neither SPT nor SCT nor IE (R208). -/
theorem TurnCase.operands_kept {s t : State} (hc : TurnCase s t) :
    t.ie = s.ie ∧ t.spt = s.spt ∧ t.sct = s.sct := by
  cases hc with
  | idle hb => exact ⟨rfl, rfl, rfl⟩
  | missed hb hk hm => simp
  | matched hb hk hm hcount => simp

/-- A scan that runs or is done still does after a turn: a trial goes on with it or completes it (R199). -/
theorem TurnCase.active {s t : State} (hc : TurnCase s t) (h : s.sbusy = true ∨ s.sdone = true) :
    t.sbusy = true ∨ t.sdone = true := by
  cases hc with
  | idle hb => exact h
  | missed hb hk hm => by_cases hlast : s.kcnt.toNat = 1023 <;> simp [hlast, hb]
  | matched hb hk hm hcount => by_cases hlast : s.kcnt.toNat = 1023 <;> simp [hlast, hb]

theorem scanFor_stable (s0 : State) (p c : Block) : TurnStable (ScanFor s0 p c) where
  turn hc hs := by
    obtain ⟨hcfg, herr, -⟩ := hc.keeps_engine
    obtain ⟨hie, hspt, hsct⟩ := hc.operands_kept
    exact ⟨hc.keeps_pair hs.pair, hcfg.trans hs.cfg, hie.trans hs.ie, herr.trans hs.err, hspt.trans hs.spt,
      hsct.trans hs.sct, hc.active hs.active⟩
  port r hs := ⟨hs.pair.withPort _ r, hs.cfg, hs.ie, hs.err, hs.spt, hs.sct, hs.active⟩

/-- A write to IP leaves the scan (R34). -/
theorem ScanFor.withIp {s0 s : State} {p c : Block} (h : ScanFor s0 p c s) (x : BitVec 2) :
    ScanFor s0 p c { s with ip := x } :=
  ⟨h.pair.frame (h.pair.inv.frame rfl (sameEngine_refl s) (sameScanner_refl s)) rfl (sameScanner_refl s),
    h.cfg, h.ie, h.err, h.spt, h.sct, h.active⟩

/-- A scan that is done has found `searchKeys(p, c)` (R205). -/
theorem ScanFor.matchList_of_done {s0 s : State} {p c : Block} (h : ScanFor s0 p c s) (hdone : s.sdone = true) :
    matchList s = searchKeys s0.cfg.tables p c := by
  rw [h.pair.result rfl, h.pair.inv.scan.done_kcnt hdone, h.cfg, h.spt, h.sct, searchKeys]

theorem ScanFor.idle_of_done {s0 s : State} {p c : Block} (h : ScanFor s0 p c s) (hdone : s.sdone = true) :
    s.sbusy = false := by
  by_contra hbusy
  have hnot := h.pair.inv.scan.busy_not_done (Bool.eq_true_of_not_eq_false hbusy)
  exact absurd (hnot.symm.trans hdone) (by decide)

/-- A scan whose percentages read so far are `reports`: they do not fall and PROGRESS is not below them. -/
structure Polling (s0 : State) (p c : Block) (reports : List Word) (s : State) : Prop where
  scan : ScanFor s0 p c s
  ascending : reports.Pairwise fun a b => a.toNat ≤ b.toNat
  heard : ∀ r ∈ reports, r.toNat ≤ s.progress.toNat

theorem polling_stable (s0 : State) (p c : Block) (reports : List Word) :
    TurnStable (Polling s0 p c reports) where
  turn hc hs := ⟨(scanFor_stable s0 p c).turn hc hs.scan, hs.ascending, fun r hr =>
    (hs.heard r hr).trans (hc.progress_le hs.scan.pair.inv.scan)⟩
  port r hs := ⟨(scanFor_stable s0 p c).port r hs.scan, hs.ascending, hs.heard⟩

theorem Polling.withIp {s0 s : State} {p c : Block} {reports : List Word} (h : Polling s0 p c reports s)
    (x : BitVec 2) : Polling s0 p c reports { s with ip := x } :=
  ⟨h.scan.withIp x, h.ascending, h.heard⟩

theorem readReg_progress_toNat (s : State) : (readReg s .progress).toNat = s.progress.toNat := by
  rw [readReg, BitVec.toNat_setWidth_of_le (by decide)]

/-- One more `RD PROGRESS` (R108). -/
theorem Polling.withReport {s0 s : State} {p c : Block} {reports : List Word} (h : Polling s0 p c reports s) :
    Polling s0 p c (reports ++ [readReg s .progress]) s where
  scan := h.scan
  ascending := by
    refine List.pairwise_append.2 ⟨h.ascending, List.pairwise_singleton _ _, fun a ha b hb => ?_⟩
    rw [List.mem_singleton.1 hb, readReg_progress_toNat]
    exact h.heard a ha
  heard r hr := by
    rcases List.mem_append.1 hr with hr | hr
    · exact h.heard r hr
    · rw [List.mem_singleton.1 hr, readReg_progress_toNat]

/-- The calls of `onProgress` end in 100 and do not fall (R209). -/
theorem Polling.lastReport_ends {s0 s : State} {p c : Block} {reports : List Word} (h : Polling s0 p c reports s) :
    (lastReport reports).getLast? = some 100 ∧ (lastReport reports).Pairwise fun a b => a.toNat ≤ b.toNat := by
  unfold lastReport
  split
  · next hlast => exact ⟨hlast, h.ascending⟩
  · refine ⟨List.getLast?_concat .., List.pairwise_append.2 ⟨h.ascending, List.pairwise_singleton _ _, ?_⟩⟩
    intro a ha b hb
    rw [List.mem_singleton.1 hb]
    exact (h.heard a ha).trans h.scan.pair.inv.scan.progress_le

/-! ### How far the scan has come -/

/-- With `n` turns of the loop left the scan is done, or a trial in each of them will complete it. -/
def Due (n : Nat) (s : State) : Prop := s.sdone = true ∨ 1025 ≤ s.kcnt.toNat + n

theorem due_stable (n : Nat) : TurnStable (Due n) where
  turn hc hs := by
    rcases hc.reports with ⟨-, rfl⟩ | ⟨-, -, hkcnt, hdone, -, -⟩
    · exact hs
    · rcases hs with hs | hs
      · exact .inl (by rw [hdone, hs, ite_self])
      · exact .inr (by omega)
  port _ hs := hs

theorem kcnt_stable (k : Nat) : TurnStable fun s => k ≤ s.kcnt.toNat where
  turn hc hs := by
    rcases hc.reports with ⟨-, rfl⟩ | ⟨-, -, hkcnt, -⟩
    · exact hs
    · omega
  port _ hs := hs

/-- A turn before an access tests one more key, if the scan is not done (R196). -/
theorem due_of_turns {m n : Nat} {s u : State} (hm : 1 ≤ m) (h : ScannerTurns m s u)
    (hactive : s.sbusy = true ∨ s.sdone = true) (hkcnt : 1025 ≤ s.kcnt.toNat + (n + 1)) : Due n u := by
  cases h with
  | none => omega
  | turn hc hrest =>
    refine (due_stable n).turns hrest ?_
    rcases hc.reports with ⟨hidle, rfl⟩ | ⟨-, -, hnext, -⟩
    · exact .inl (hactive.resolve_left (by simpa using hidle))
    · exact .inr (by rw [hnext]; dsimp only; omega)

/-- The completing trial sets both bits of IP (R198, R199), so where neither has been cleared since, both are
pending. -/
def PendingIfDone (s : State) : Prop := s.sdone = true → s.ip = 3

theorem pendingIfDone_stable : TurnStable PendingIfDone where
  turn {s t} hc hs := by
    have hset : ∀ ip : BitVec 2, ip ||| ipProg ||| ipDone = 3 := by decide
    rcases hc.reports with ⟨-, rfl⟩ | ⟨-, -, -, hdone, hip, -⟩
    · exact hs
    · intro ht
      by_cases hlast : s.kcnt.toNat = 1023
      · rw [hip, if_pos hlast, hset]
      · rw [hdone, if_neg hlast] at ht
        rw [hip, if_neg hlast, hs ht]
        split <;> rfl
  port _ hs := hs

/-- With both bits of IP pending and one of them enabled the wire is 1 (R52). -/
theorem irq_of_pending {s : State} (hip : s.ip = 3) (hie : s.ie.getLsbD 0 = true ∨ s.ie.getLsbD 1 = true) :
    irq s = true := by
  rcases hie with hie | hie <;> simp [irq, hip, hie]

/-! ### The end of the search -/

/-- Without a scan running the scanner's turns change nothing but the port's answer (R250). -/
theorem ScannerTurns.of_idle {n : Nat} {s u : State} (h : ScannerTurns n s u) (hb : s.sbusy = false) :
    ∃ r, u = { s with response := r } := by
  refine (TurnStable.turns (P := fun u => u.sbusy = false ∧ ∃ r, u = { s with response := r })
    ⟨fun hc hs => ?_, fun r hs => ?_⟩ h ⟨hb, s.response, rfl⟩).2
  · cases hc with
    | idle => exact hs
    | missed hbusy => exact absurd (hs.1.symm.trans hbusy) (by decide)
    | matched hbusy => exact absurd (hs.1.symm.trans hbusy) (by decide)
  · obtain ⟨hidle, _, rfl⟩ := hs
    exact ⟨hidle, r, rfl⟩

/-- What `bruteForce` called in `s0` answers in its last state: if the scan was seen done, the keys and the
reports of D00; and under `live` it was. -/
def SearchEnds (s0 : State) (p c : Block) (live : Prop) (t : State) (a : Checked SearchAnswer) : Prop :=
  ∃ answer, a = .ok answer
    ∧ (∀ reports keys, answer = .found reports keys →
      keys = searchKeys s0.cfg.tables p c ∧ reports.getLast? = some 100
        ∧ reports.Pairwise (fun a b => a.toNat ≤ b.toNat) ∧ t.sdone = true ∧ t.ip = 0)
    ∧ (live → ∃ reports keys, answer = .found reports keys)

/-- Reading visible MATCH entries gives their keys, in order (R37, R204). -/
theorem yields_readKeys {turns : Nat → Nat} {s : State} {indices : List Nat} {keys : List Key}
    {answer : List Key → SearchAnswer} {Q : State → Checked SearchAnswer → Prop} (hb : s.sbusy = false)
    (hvisible : ∀ i ∈ indices, i < s.mcount.toNat ∧ i < 1024)
    (hQ : ∀ r, Q { s with response := r } (.ok (answer (keys ++ indices.map (matchCell s))))) :
    Yields turns (readKeys indices keys answer) s Q := by
  induction indices generalizing turns s keys with
  | nil => exact .done (by simpa using hQ s.response)
  | cons i rest ih =>
    refine .readMatch fun u hu => ?_
    obtain ⟨r, rfl⟩ := hu.of_idle hb
    obtain ⟨hi, hdepth⟩ := hvisible i List.mem_cons_self
    have hkey : (readMatch { s with response := r } (BitVec.ofNat 10 i)).setWidth 10 = matchCell s i := by
      have hvalid : ∀ k : Key, (0x80000000#32 ||| k.setWidth 32).setWidth 10 = k := by decide
      have hindex : (BitVec.ofNat 10 i).toNat = i := by rw [BitVec.toNat_ofNat, Nat.mod_eq_of_lt hdepth]
      rw [readMatch, hindex, if_pos hi]
      exact hvalid _
    rw [hkey]
    refine ih hb (fun j hj => hvisible j (List.mem_cons_of_mem _ hj)) fun r' => ?_
    rw [List.append_assoc]
    exact hQ r'

section
variable {s0 : State} {p c : Block} {live : Prop}

/-- Once SDONE = 1, the search ends with the keys (R204, R205). -/
theorem yields_collectKeys {turns : Nat → Nat} {s : State} {reports : List Word}
    (h : Polling s0 p c reports s) (hdone : s.sdone = true) :
    Yields turns (collectKeys reports) s (SearchEnds s0 p c live) := by
  have hb := h.scan.idle_of_done hdone
  have hcleared : clearOnes s.ip 3 = 0 := (by decide : ∀ ip : BitVec 2, clearOnes ip 3 = 0) s.ip
  refine .write fun u t hu hw => .read fun v hv => ?_
  obtain ⟨r, rfl⟩ := hu.of_idle hb
  cases hw
  obtain ⟨r', rfl⟩ := hv.of_idle hb
  have hcount : (readReg { s with ip := clearOnes s.ip 3, response := r' } .mcount).toNat = s.mcount.toNat := by
    rw [readReg, BitVec.toNat_setWidth_of_le (by decide)]
  have hdepth : s.mcount.toNat ≤ 1024 :=
    h.scan.pair.inv.scan.mcount_le.trans h.scan.pair.inv.scan.kcnt_le
  obtain ⟨hlast, hascending⟩ := h.lastReport_ends
  rw [hcount]
  refine yields_readKeys hb (fun i hi => ?_) fun r'' => ⟨_, rfl, ?_, fun _ => ⟨_, _, rfl⟩⟩
  · have hlt := List.mem_range.1 hi
    exact ⟨hlt, by omega⟩
  · rintro _ _ ⟨⟩
    exact ⟨h.scan.matchList_of_done hdone, hlast, hascending, hdone, hcleared⟩

/-! ### The loop -/

/-- The end of one turn of the loop: STATUS is asked for SDONE. -/
def untilDone (wait : Wait) (n : Nat) (seen : List Word) : HostProgram (Checked SearchAnswer) :=
  rdThen .status fun status =>
    if status.getLsbD 1 then collectKeys seen else pollSearch wait n seen

/-- One turn of the loop, where it is served: a pending report is taken and acknowledged, then STATUS is read. -/
def servedTurn (wait : Wait) (n : Nat) (reports : List Word) : HostProgram (Checked SearchAnswer) :=
  rdThen .ip fun ip =>
    if ip.getLsbD 1 then
      rdThen .progress fun percent => wrThen .ip 2 (untilDone wait n (reports ++ [percent]))
    else untilDone wait n reports

theorem pollSearch_zero (wait : Wait) (reports : List Word) :
    pollSearch wait 0 reports = .done (.ok (.waiting reports)) := rfl

theorem pollSearch_succ (wait : Wait) (n : Nat) (reports : List Word) :
    pollSearch wait (n + 1) reports
      = waitThen wait (servedTurn wait n reports) (pollSearch wait n reports) := rfl

/-- The loop with `n` turns left ends the search, from every state of the scan in which a completed scan is still
pending; under `live` there is a trial before each access, and they are enough to complete the scan. -/
def LoopEnds (s0 : State) (p c : Block) (live : Prop) (wait : Wait) (n : Nat) : Prop :=
  ∀ (turns : Nat → Nat) (reports : List Word) (s : State), (live → ∀ m, 1 ≤ turns m) →
    Polling s0 p c reports s → PendingIfDone s → (live → 1025 ≤ s.kcnt.toNat + n) →
      Yields turns (pollSearch wait n reports) s (SearchEnds s0 p c live)

/-- The end of a turn of the loop: the keys are collected, or the scan is not done and the loop goes on. -/
theorem yields_untilDone {wait : Wait} {n : Nat} (hloop : LoopEnds s0 p c live wait n) {turns : Nat → Nat}
    {seen : List Word} {s : State} (hturns : live → ∀ m, 1 ≤ turns m) (h : Polling s0 p c seen s)
    (hdue : live → Due n s) : Yields turns (untilDone wait n seen) s (SearchEnds s0 p c live) := by
  refine .read fun u hu => ?_
  have hpolling := (polling_stable s0 p c seen).turns hu h
  obtain ⟨-, -, -, -, hbit⟩ := statusWord_fields u
  rw [readReg, hbit]
  cases hdone : u.sdone with
  | true => exact yields_collectKeys hpolling hdone
  | false =>
    have hnot : u.sdone ≠ true := by simp [hdone]
    exact hloop _ seen u (fun hlive m => hturns hlive (m + 1)) hpolling (fun ht => absurd ht hnot)
      fun hlive => ((due_stable n).turns hu (hdue hlive)).resolve_left hnot

/-- A served turn of the loop ends the search, if the rest of the loop does. -/
theorem yields_servedTurn {wait : Wait} {n : Nat} (hloop : LoopEnds s0 p c live wait n) {turns : Nat → Nat}
    {reports : List Word} {s : State} (hturns : live → ∀ m, 1 ≤ turns m) (h : Polling s0 p c reports s)
    (hkcnt : live → 1025 ≤ s.kcnt.toNat + (n + 1)) :
    Yields turns (servedTurn wait n reports) s (SearchEnds s0 p c live) := by
  refine .read fun u hu => ?_
  have hpolling := (polling_stable s0 p c reports).turns hu h
  have hdue : live → Due n u := fun hlive =>
    due_of_turns (hturns hlive 0) hu h.scan.active (hkcnt hlive)
  split
  · refine .read fun v hv => .write fun w t hw hip => ?_
    cases hip
    have hreported := ((polling_stable s0 p c reports).turns hv hpolling).withReport
    refine yields_untilDone hloop (fun hlive m => hturns hlive (m + 3))
      (((polling_stable s0 p c _).turns hw hreported).withIp _) fun hlive => ?_
    have hdueWrite : Due n w := (due_stable n).turns hw ((due_stable n).turns hv (hdue hlive))
    exact hdueWrite
  · exact yields_untilDone hloop (fun hlive m => hturns hlive (m + 1)) hpolling hdue

/-- The loop of `bruteForce` ends the search, by induction on its turns; a host that waits for `irq` needs one of
IE.DONE and IE.PROG set, so that it does not sleep through the end of the scan. -/
theorem loopEnds {wait : Wait}
    (hwait : live → wait = .interrupt → s0.ie.getLsbD 0 = true ∨ s0.ie.getLsbD 1 = true) (n : Nat) :
    LoopEnds s0 p c live wait n := by
  induction n with
  | zero =>
    intro turns reports s _ h _ hkcnt
    have hle := h.scan.pair.inv.scan.kcnt_le
    refine .done ⟨_, rfl, fun _ _ hfound => SearchAnswer.noConfusion hfound, fun hlive => ?_⟩
    have hmany := hkcnt hlive
    omega
  | succ n ih =>
    intro turns reports s hturns h hpending hkcnt
    rw [pollSearch_succ]
    cases wait with
    | polling => exact yields_servedTurn ih hturns h hkcnt
    | interrupt =>
      refine .sample fun u hu => ?_
      have hturns' : live → ∀ m, 1 ≤ turns (m + 1) := fun hlive m => hturns hlive (m + 1)
      have hpolling := (polling_stable s0 p c reports).turns hu h
      have hpending' := pendingIfDone_stable.turns hu hpending
      split
      · refine yields_servedTurn ih hturns' hpolling fun hlive => ?_
        have hgrown := (kcnt_stable s.kcnt.toNat).turns hu (Nat.le_refl _)
        have hmany := hkcnt hlive
        omega
      · next hquiet =>
        refine ih _ reports u hturns' hpolling hpending' fun hlive => ?_
        have hnot : u.sdone ≠ true := fun hdone =>
          hquiet (irq_of_pending (hpending' hdone) (hpolling.scan.ie ▸ hwait hlive rfl))
        exact (due_of_turns (hturns hlive 0) hu h.scan.active (hkcnt hlive)).resolve_left hnot

/-! ### The whole call -/

/-- The check after SEARCH passes while the scan runs and when it is done (R108). -/
theorem ScanFor.check {s : State} (h : ScanFor s0 p c s) :
    (searchBits (readReg s .status) && !errAnyBit (readReg s .status)) = true := by
  obtain ⟨-, -, hany, hbusy, hdone⟩ := statusWord_fields s
  rw [readReg, searchBits, hany, hbusy, hdone, errAny_of_zero h.err]
  simpa using h.active

/-- A state with the invariant, ERR = 0 and no scan, with the configuration and IE of `s0` and these operands. -/
structure Prepared (s0 : State) (ip : BitVec 2) (p c : Block) (s : State) : Prop where
  inv : StateInv s
  cfg : s.cfg = s0.cfg
  ie : s.ie = s0.ie
  err : s.err = 0
  idle : s.sbusy = false
  ip : s.ip = ip
  spt : s.spt = p
  sct : s.sct = c

theorem prepared_stable (s0 : State) (ip : BitVec 2) (p c : Block) : TurnStable (Prepared s0 ip p c) where
  turn hc hs := by
    cases hc with
    | idle => exact hs
    | missed hbusy => exact absurd (hs.idle.symm.trans hbusy) (by decide)
    | matched hbusy => exact absurd (hs.idle.symm.trans hbusy) (by decide)
  port r hs := ⟨hs.inv.withPort _ r, hs.cfg, hs.ie, hs.err, hs.idle, hs.ip, hs.spt, hs.sct⟩

/-- `WR IP,0x3` clears what an older scan left pending (R270). -/
theorem Prepared.clearIp {ip : BitVec 2} {s t : State} (h : Prepared s0 ip p c s)
    (hw : writeReg .ip 3 s = .next t) : Prepared s0 0 p c t := by
  cases hw
  have hcleared : ∀ x : BitVec 2, clearOnes x 3 = 0 := by decide
  exact ⟨h.inv.frame rfl (sameEngine_refl s) (sameScanner_refl s), h.cfg, h.ie, h.err, h.idle, hcleared _, h.spt,
    h.sct⟩

theorem Prepared.writeSpt {ip : BitVec 2} {b : Block} {s t : State} (h : Prepared s0 ip p c s)
    (hw : writeReg .spt (b.setWidth 32) s = .next t) : Prepared s0 ip b c t := by
  cases (writeReg_pair_block h.idle b).1.symm.trans hw
  exact ⟨h.inv.withPair h.idle b s.sct, h.cfg, h.ie, h.err, h.idle, h.ip, rfl, h.sct⟩

theorem Prepared.writeSct {ip : BitVec 2} {b : Block} {s t : State} (h : Prepared s0 ip p c s)
    (hw : writeReg .sct (b.setWidth 32) s = .next t) : Prepared s0 ip p b t := by
  cases (writeReg_pair_block h.idle b).2.symm.trans hw
  exact ⟨h.inv.withPair h.idle s.spt b, h.cfg, h.ie, h.err, h.idle, h.ip, h.spt, rfl⟩

/-- SEARCH begins the scan of the pair in SPT and SCT (R192). -/
theorem Prepared.search {ip : BitVec 2} {s t : State} (h : Prepared s0 ip p c s)
    (hexec : exec .search s = .next t) : ScanFor s0 p c t ∧ t.sdone = false := by
  cases exec_cases hexec with
  | dropped _ hi he => exact absurd h.err he
  | busy he hb => exact absurd (h.idle.symm.trans hb) (by decide)
  | search he hb =>
    exact ⟨⟨pairInv_of_kcnt_zero h.inv.startScan rfl, h.cfg, h.ie, h.err, h.spt, h.sct, .inl rfl⟩, rfl⟩

/-- From a state with the invariant, ERR = 0 and no scan, the call ends the search. -/
theorem yields_bruteForce {wait : Wait} {polls : Nat} {turns : Nat → Nat} (hinv : StateInv s0)
    (herr : s0.err = 0) (hb : s0.sbusy = false) (hturns : live → ∀ m, 1 ≤ turns m)
    (hpolls : live → 1024 ≤ polls)
    (hwait : live → wait = .interrupt → s0.ie.getLsbD 0 = true ∨ s0.ie.getLsbD 1 = true) :
    Yields turns (bruteForce wait polls p c) s0 (SearchEnds s0 p c live) := by
  refine .write fun u1 t1 hu1 hip => .write fun u2 t2 hu2 hspt => .write fun u3 t3 hu3 hsct =>
    .command fun u4 t4 hu4 hexec => .read fun v hv => ?_
  have h0 : Prepared s0 s0.ip s0.spt s0.sct s0 := ⟨hinv, rfl, rfl, herr, hb, rfl, rfl, rfl⟩
  have h1 := ((prepared_stable ..).turns hu1 h0).clearIp hip
  have h2 := ((prepared_stable ..).turns hu2 h1).writeSpt hspt
  have h3 := ((prepared_stable ..).turns hu3 h2).writeSct hsct
  obtain ⟨hstarted, hnotDone⟩ := ((prepared_stable ..).turns hu4 h3).search hexec
  have hscan := (scanFor_stable s0 p c).turns hv hstarted
  have hpending : PendingIfDone t4 := fun hdone => absurd (hnotDone.symm.trans hdone) (by decide)
  rw [if_pos hscan.check]
  refine loopEnds hwait polls _ [] v (fun hlive m => hturns hlive (m + 5))
    ⟨hscan, .nil, fun r hr => nomatch hr⟩ (pendingIfDone_stable.turns hv hpending) fun hlive => ?_
  have henough := hpolls hlive
  rcases due_of_turns (n := 1024) (hturns hlive 4) hv hstarted.active (by omega) with hdone | hkcnt
  · have hall := hscan.pair.inv.scan.done_kcnt hdone
    omega
  · omega

end

end Sys2Proof.Machine

namespace Sys2Proof.Proofs
open Sys2Proof Sys2Proof.Machine

/-- Settles O55: the loop keeps the scan of `(p, c)` in view until it is done, and each access finds it a key
further if a trial falls before each. -/
theorem bruteForceReturnsSearchKeys : Obligations.BruteForceReturnsSearchKeys := by
  intro s turns wait polls p c hinv herr hb
  obtain ⟨t, _, hrun, answer, rfl, hfound, hlive⟩ :=
    yields_bruteForce (p := p) (c := c) (turns := turns) (polls := polls) (wait := wait)
      (live := (∀ n, 1 ≤ turns n) ∧ 1024 ≤ polls
        ∧ (wait = .interrupt → s.ie.getLsbD 0 = true ∨ s.ie.getLsbD 1 = true))
      hinv herr hb (fun ⟨htrials, _, _⟩ => htrials) (fun ⟨_, henough, _⟩ => henough)
      (fun ⟨_, _, hwakes⟩ => hwakes) (.inl hinv)
  exact ⟨t, answer, hrun, hfound, fun hturns hpolls hwait => hlive ⟨hturns, hpolls, hwait⟩⟩

end Sys2Proof.Proofs
end

section
/-! PROOFS. The bit-vector primitives in both numberings, and the corner cases of a rotation
(spec/40_bitvector_primitives.md rules R121, R123, R126). -/

namespace Sys2Proof.Machine

/-! ### Positions -/

/-- The position after `q` others. -/
@[simp] theorem bitAt_succ {w : Nat} (v : BitVec w) (q : Nat) : bitAt v (q + 1) = v.getMsbD q := rfl

/-- Index `w - p` is position `p` (R9). -/
theorem getLsbD_eq_bitAt {w : Nat} (v : BitVec w) {p : Nat} (h1 : 1 ≤ p) (hp : p ≤ w) :
    v.getLsbD (w - p) = bitAt v p := by
  obtain ⟨q, rfl⟩ := Nat.exists_eq_add_of_le' h1
  rw [bitAt_succ, BitVec.getMsbD_eq_getLsbD, decide_eq_true (by omega : q < w), Bool.true_and]
  congr 1
  omega

/-! ### Rotations -/

/-- A rotation reads position `q + 1` from `n` positions further on, circularly (R123). -/
theorem getMsbD_rotateLeft {w : Nat} (v : BitVec w) (n : Nat) {q : Nat} (hq : q < w) :
    (rotateLeft v n).getMsbD q = v.getMsbD ((q + n) % w) := by
  rw [rotateLeft, BitVec.getMsbD_rotateLeft, decide_eq_true hq, Bool.true_and, Nat.add_comm]

/-- A rotation in the positions that count from 1 (R123). -/
theorem bitAt_rotateLeft {w : Nat} (v : BitVec w) (n : Nat) {p : Nat} (h1 : 1 ≤ p) (hp : p ≤ w) :
    bitAt (rotateLeft v n) p = bitAt v ((p - 1 + n % w) % w + 1) := by
  obtain ⟨q, rfl⟩ := Nat.exists_eq_add_of_le' h1
  rw [bitAt_succ, bitAt_succ, getMsbD_rotateLeft v n hp, Nat.add_sub_cancel, Nat.add_mod_mod]

/-- A rotation reads index `i` from `n mod w` indexes below, circularly (R123). -/
theorem getLsbD_rotateLeft {w : Nat} (v : BitVec w) (n : Nat) {i : Nat} (hi : i < w) :
    (rotateLeft v n).getLsbD i = v.getLsbD ((i + (w - n % w)) % w) := by
  have hs : n % w < w := Nat.mod_lt n (by omega)
  rw [rotateLeft, BitVec.getLsbD_rotateLeft]
  by_cases hwrap : i < n % w
  · have hsource : (i + (w - n % w)) % w = w - n % w + i := by
      rw [Nat.mod_eq_of_lt (by omega : i + (w - n % w) < w), Nat.add_comm]
    rw [decide_eq_true hwrap, cond_true, hsource]
  · have hsource : (i + (w - n % w)) % w = i - n % w := by
      rw [show i + (w - n % w) = i - n % w + w by omega, Nat.add_mod_right,
        Nat.mod_eq_of_lt (by omega)]
    rw [decide_eq_false hwrap, cond_false, decide_eq_true hi, Bool.true_and, hsource]

/-- A rotation as a number: the part shifted out at the top comes in at the bottom, where it fits (R123). -/
theorem toNat_rotateLeft {w : Nat} (v : BitVec w) (n : Nat) :
    (rotateLeft v n).toNat = ((v.toNat <<< (n % w)) ||| (v.toNat >>> (w - n % w))) % 2 ^ w := by
  have hlow : v.toNat >>> (w - n % w) < 2 ^ w := (Nat.shiftRight_le _ _).trans_lt v.isLt
  rw [rotateLeft, BitVec.toNat_rotateLeft, Nat.or_mod_two_pow, Nat.mod_eq_of_lt hlow]

/-- Rotations add (R123). -/
theorem rotateLeft_rotateLeft {w : Nat} (v : BitVec w) (a b : Nat) :
    rotateLeft (rotateLeft v a) b = rotateLeft v (a + b) := by
  apply eq_of_getMsbD
  intro q hq
  rw [getMsbD_rotateLeft _ _ hq, getMsbD_rotateLeft _ _ (Nat.mod_lt _ (by omega)),
    getMsbD_rotateLeft _ _ hq, Nat.mod_add_mod, Nat.add_assoc, Nat.add_comm b]

/-- Rotating by a multiple of the width changes nothing (R123). -/
theorem rotateLeft_of_mod_eq_zero {w : Nat} (v : BitVec w) {n : Nat} (hn : n % w = 0) :
    rotateLeft v n = v := by
  apply eq_of_getMsbD
  intro q hq
  rw [getMsbD_rotateLeft _ _ hq, Nat.add_mod, hn, Nat.add_zero, Nat.mod_mod, Nat.mod_eq_of_lt hq]

/-- A vector with the same bit everywhere is fixed by every rotation (R123). -/
theorem rotateLeft_of_getMsbD_const {w : Nat} {v : BitVec w} {c : Bool} (n : Nat)
    (hc : ∀ q < w, v.getMsbD q = c) : rotateLeft v n = v := by
  apply eq_of_getMsbD
  intro q hq
  rw [getMsbD_rotateLeft _ _ hq, hc _ (Nat.mod_lt _ (by omega)), hc q hq]

@[simp] theorem rotateLeft_zeros {w : Nat} (n : Nat) : rotateLeft 0#w n = 0#w :=
  rotateLeft_of_getMsbD_const n fun _ _ => BitVec.getMsbD_zero

@[simp] theorem rotateLeft_allOnes {w : Nat} (n : Nat) :
    rotateLeft (BitVec.allOnes w) n = BitVec.allOnes w :=
  rotateLeft_of_getMsbD_const n fun _ hq => BitVec.getMsbD_allOnes.trans (decide_eq_true hq)

/-! ### S-box row and column -/

/-- Two single bits of a vector, joined, are the number they spell. -/
theorem toNat_append_bits {w : Nat} (v : BitVec w) (i j : Nat) :
    (v.extractLsb' i 1 ++ v.extractLsb' j 1).toNat
      = 2 * (v.getLsbD i).toNat + (v.getLsbD j).toNat := by
  rw [BitVec.toNat_append, ← Nat.shiftLeft_add_eq_or_of_lt (BitVec.isLt _), Nat.shiftLeft_eq]
  simp [BitVec.extractLsb'_toNat, BitVec.getLsbD, Nat.toNat_testBit, Nat.shiftRight_eq_div_pow,
    Nat.mul_comm]

/-- The row is `2*n[3] + n[0]` (R126). -/
theorem toNat_sboxRow (n : Half) :
    (sboxRow n).toNat = 2 * (n.getLsbD 3).toNat + (n.getLsbD 0).toNat :=
  toNat_append_bits n 3 0

/-- The column is `2*n[2] + n[1]` (R126). -/
theorem toNat_sboxColumn (n : Half) :
    (sboxColumn n).toNat = 2 * (n.getLsbD 2).toNat + (n.getLsbD 1).toNat :=
  toNat_append_bits n 2 1

end Sys2Proof.Machine

namespace Sys2Proof.Proofs
open Sys2Proof Sys2Proof.Machine

/-- Settles O26: the numbering by indexes is the one by positions, read from the other end. -/
theorem permuteFollowsItsTable : Obligations.PermuteFollowsItsTable := by
  intro m n v t q h1 h
  have hposition : bitAt (permute v t) q = bitAt v ((t[q - 1]'h).val + 1) := getMsbD_permute v t _ h
  refine ⟨hposition, ?_⟩
  have hentry := (t[q - 1]'h).isLt
  rw [getLsbD_eq_bitAt _ h1 (by omega), getLsbD_eq_bitAt _ (by omega) (by omega), hposition]

/-- Settles O27: what each bit is gives the rotations that add and those that change nothing. -/
theorem rotateLeftIsCircular : Obligations.RotateLeftIsCircular :=
  ⟨fun w v n _ => ⟨fun _ h1 hp => bitAt_rotateLeft v n h1 hp, fun _ hi => getLsbD_rotateLeft v n hi,
    fun _ => toNat_rotateLeft v n, rotateLeft_of_mod_eq_zero v,
    rotateLeft_of_mod_eq_zero v (Nat.zero_mod w), rotateLeft_of_mod_eq_zero v (Nat.mod_self w),
    rotateLeft_rotateLeft v n, rotateLeft_zeros n, rotateLeft_allOnes n⟩, by decide⟩

/-- Settles O28: the numbers given are the row and the column that the lookup forms. -/
theorem sboxLookupRowAndColumn : Obligations.SboxLookupRowAndColumn := by
  intro n table row column hrow hcolumn
  rw [← toNat_sboxRow] at hrow
  rw [← toNat_sboxColumn] at hcolumn
  simp only [sboxLookup, Fin.getElem_fin, hrow, hcolumn]

end Sys2Proof.Proofs
end

section
/-! PROOFS. The command KEYGEN, and the key schedule of the key 0 (spec/41_key_schedule.md rules R145, R146). -/

namespace Sys2Proof.Machine

/-! ### The key schedule -/

@[simp] theorem left_zero {w : Nat} : left 0#(w + w) = 0#w := BitVec.extractLsb'_zero

@[simp] theorem right_zero {w : Nat} : right 0#(w + w) = 0#w := BitVec.extractLsb'_zero

/-- The key 0 has the subkeys 0, whatever the tables are: every stage is wiring (R145 (c)). -/
theorem keySchedule_zero (t : Tables) : keySchedule t 0 = (0, 0) := by
  have hhalves : keyHalves t 0 = (0#5, 0#5) := by
    unfold keyHalves
    rw [show (0 : Key) = 0#10 from rfl, permute_zero]
    exact Prod.ext left_zero right_zero
  have hcompress : compress t 0#5 0#5 = 0 := permute_zero t.p8
  simp only [keySchedule, hhalves, rotateLeft_zeros, hcompress]

/-- The worked example of D00 with the default TABLES (R147, log entry 5). -/
theorem keySchedule_example : keySchedule defaultTables 0x282 = (0xA4, 0x43) := by decide +kernel

/-! ### KEYGEN -/

/-- With ERR = 0, KEYGEN derives the subkeys (R146). -/
theorem exec_keygen_runs {s : State} (h : s.err = 0) : exec .keygen s = .next (deriveSubkeys s) :=
  congrArg Host.Outcome.next (unlessLocked_runs keygenEffect h)

/-- Deriving reads only KEY and TABLES, which it leaves, so twice is as once. -/
theorem deriveSubkeys_deriveSubkeys (s : State) : deriveSubkeys (deriveSubkeys s) = deriveSubkeys s := rfl

theorem deriveSubkeys_reset :
    deriveSubkeys State.reset = { State.reset with k1 := 0, k2 := 0, kvalid := true } := by
  have hsubkeys : keySchedule State.reset.cfg.tables State.reset.key = (0, 0) := keySchedule_zero _
  simp only [deriveSubkeys, hsubkeys]

/-! ### The accesses of a run on events -/

/-- A read at the head of a run returns its register's word first, and the run goes on (R81). -/
theorem hostRun_rd {r : Reg} {es : List Event} {s t : State} {ws : List Word}
    (h : hostRun es { s with response := .data (readReg s r) } = .next (t, ws)) :
    hostRun (rd r :: es) s = .next (t, readReg s r :: ws) := by
  have hport : readReg { s with response := .none } r = readReg s r := by cases r <;> rfl
  rw [hostRun_cons (runEvent_rd r { s with response := .none }), hport, h]
  rfl

/-- A write of a key that fits, at the head of a run (R22). -/
theorem hostRun_writeKey {key : Key} {es : List Event} {s t : State} {ws : List Word}
    (h : hostRun es { s with key := key, kvalid := false, lastop := 0, response := .written }
      = .next (t, ws)) :
    hostRun (wr .key (key.setWidth 32) :: es) s = .next (t, ws) := by
  have hw := runEvent_wr .key (key.setWidth 32) { s with response := .none }
  rw [writeReg_key_setWidth] at hw
  rw [hostRun_cons hw, h]
  rfl

/-- A command at the head of a run (R101); no command changes the port's answer. -/
theorem hostRun_cmd {i : Instr} {es : List Event} {s u t : State} {ws : List Word}
    (hexec : exec i { s with response := .written } = .next u) (h : hostRun es u = .next (t, ws)) :
    hostRun (cmd i :: es) s = .next (t, ws) := by
  rw [hostRun_cons ((runEvent_cmd i { s with response := .none }).trans hexec), h,
    (exec_cases hexec).response]
  rfl

/-- A key written, KEYGEN, and the subkeys and STATUS read back, from any state with ERR = 0 (R146). -/
theorem hostRun_keygen {s : State} (herr : s.err = 0) (key : Key) :
    ∃ t, hostRun [wr .key (key.setWidth 32), cmd .keygen, rd .k1, rd .k2, rd .status] s
      = .next (t, [(keySchedule s.cfg.tables key).1.setWidth 32, (keySchedule s.cfg.tables key).2.setWidth 32,
          statusWord { s with kvalid := true, lastop := 0 }]) :=
  ⟨_, hostRun_writeKey (hostRun_cmd (exec_keygen_runs herr)
    (hostRun_rd (hostRun_rd (hostRun_rd (hostRun_nil _)))))⟩

end Sys2Proof.Machine

namespace Sys2Proof.Proofs
open Sys2Proof Sys2Proof.Machine

/-- Settles O8: KEYGEN is `deriveSubkeys` or, locked out, nothing; the example is D00's key through the
registers. -/
theorem keygenDerivesTheSubkeys : Obligations.KeygenDerivesTheSubkeys := by
  refine ⟨decode_encode_command .keygen, fun _ => exec_keygen_runs, fun _ he => exec_locked he (.inl rfl),
    fun s herr => ⟨deriveSubkeys s, exec_keygen_runs herr, ?twice⟩, ?reset, ?worked⟩
  case twice =>
    rw [exec_keygen_runs (s := deriveSubkeys s) herr, deriveSubkeys_deriveSubkeys]
  case reset =>
    rw [exec_keygen_runs rfl, deriveSubkeys_reset]
  case worked =>
    have hkeys : keySchedule State.reset.cfg.tables 0x282 = (0xA4, 0x43) := keySchedule_example
    have hstatus : statusWord { State.reset with kvalid := true, lastop := 0 } = 0x8 := by decide
    obtain ⟨t, hrun⟩ := hostRun_keygen (s := State.reset) rfl 0x282
    rw [hkeys, hstatus] at hrun
    exact ⟨t, hrun⟩

end Sys2Proof.Proofs
end

section
/-! PROOFS. The round function by its S-box stage, and its complete tables for four subkeys
(spec/42_round_function.md rules R151 to R158). -/

namespace Sys2Proof.Machine

/-- What F does after the XOR: each half through its own S-box, the two outputs through P4 (R153 to R155). -/
def substitute (t : Tables) (x : Block) : Half :=
  permute (sboxLookup (left x) t.sbox1 ++ sboxLookup (right x) t.sbox2) t.p4

/-- F meets its operands only in the XOR of the expanded half with the subkey (R156). -/
theorem roundF_eq_substitute (t : Tables) (r : Half) (k : Block) :
    roundF t r k = substitute t (permute r t.ep ^^^ k) := rfl

end Sys2Proof.Machine

namespace Sys2Proof.Proofs
open Sys2Proof Sys2Proof.Machine

/-- Settles O32: the four rows are evaluated, and F is a function of the XOR alone. -/
theorem roundFunctionTables : Obligations.RoundFunctionTables := by
  refine ⟨?subkey00, ?subkeyFF, ?subkeyA4, ?subkey43, fun t r r' k k' hxor => ?onlyXor⟩
  case onlyXor => rw [roundF_eq_substitute, roundF_eq_substitute, hxor]
  all_goals decide +kernel

end Sys2Proof.Proofs
end

section
/-! PROOFS. Encryption undoes decryption, and the commands ENC and DEC (spec/43_block_cipher.md rules R167 to R175). -/

namespace Sys2Proof.Machine

/-! ### The two directions of the cipher -/

/-- Encryption passes the circuit with K1 in round 1 and K2 in round 2 (R167). -/
theorem encrypt_eq_crypt (t : Tables) (p : Block) (key : Key) :
    encrypt t p key = crypt t p (keySchedule t key).1 (keySchedule t key).2 := rfl

/-- Decryption passes the same circuit with the subkeys in the other order (R168). -/
theorem decrypt_eq_crypt (t : Tables) (c : Block) (key : Key) :
    decrypt t c key = crypt t c (keySchedule t key).2 (keySchedule t key).1 := rfl

/-- The other direction of `decrypt_encrypt`: swapping the subkeys is symmetric in them (R175). -/
theorem encrypt_decrypt {t : Tables} (h : t.ip.undoes t.ipinv = true) (c : Block) (key : Key) :
    encrypt t (decrypt t c key) key = c := by
  rw [decrypt_eq_crypt, encrypt_eq_crypt, crypt_swapped_crypt h]

/-- The block that ENC gives after reset, where KEY and DIN are 0 (R171, default TABLES, log entry 5). -/
theorem encrypt_zero_default : encrypt defaultTables 0 0 = 0xF0 := by decide +kernel

/-- The worked example of R171 (default TABLES, log entry 5). -/
theorem encrypt_example : encrypt defaultTables 0xA5 0x282 = 0xCA := by decide +kernel

/-- The worked example of R172 is that of R171 undone. -/
theorem decrypt_example : decrypt defaultTables 0xCA 0x282 = 0xA5 := by
  have hundoes : defaultTables.ip.undoes defaultTables.ipinv = true := by decide
  rw [← encrypt_example, decrypt_encrypt hundoes]

/-! ### ENC and DEC -/

/-- With ERR = 0, ENC has its effect (R171). -/
theorem exec_enc_runs {s : State} (h : s.err = 0) : exec .enc s = .next (encEffect s) :=
  congrArg Host.Outcome.next (unlessLocked_runs encEffect h)

/-- With ERR = 0, DEC has its effect (R172). -/
theorem exec_dec_runs {s : State} (h : s.err = 0) : exec .dec s = .next (decEffect s) :=
  congrArg Host.Outcome.next (unlessLocked_runs decEffect h)

/-- ENC reads only DIN, KEY and TABLES, which it leaves, so twice is as once. -/
theorem encEffect_encEffect (s : State) : encEffect (encEffect s) = encEffect s := rfl

/-- DEC reads only DIN, KEY and TABLES, which it leaves, so twice is as once. -/
theorem decEffect_decEffect (s : State) : decEffect (decEffect s) = decEffect s := rfl

/-! ### A block through the registers, from any state with ERR = 0 -/

/-- A write of a block that fits, at the head of a run (R23). -/
theorem hostRun_writeDin {b : Block} {es : List Event} {s t : State} {ws : List Word}
    (h : hostRun es { s with din := b, lastop := 0, response := .written } = .next (t, ws)) :
    hostRun (wr .din (b.setWidth 32) :: es) s = .next (t, ws) := by
  have hw := runEvent_wr .din (b.setWidth 32) { s with response := .none }
  rw [writeReg_din_setWidth] at hw
  rw [hostRun_cons hw, h]
  rfl

/-- ENC on the operands as they stand, and the block read back (R171). -/
theorem hostRun_enc_dout {s : State} (herr : s.err = 0) :
    ∃ t, hostRun [cmd .enc, rd .dout] s
      = .next (t, [(encrypt s.cfg.tables s.din s.key).setWidth 32]) :=
  ⟨_, hostRun_cmd (exec_enc_runs herr) (hostRun_rd (hostRun_nil _))⟩

/-- The operands written, ENC, and the block, the subkeys and STATUS read back (R171). -/
theorem hostRun_enc {s : State} (herr : s.err = 0) (key : Key) (b : Block) :
    ∃ t, hostRun [wr .key (key.setWidth 32), wr .din (b.setWidth 32), cmd .enc, rd .dout, rd .k1, rd .k2,
        rd .status] s
      = .next (t, [(encrypt s.cfg.tables b key).setWidth 32, (keySchedule s.cfg.tables key).1.setWidth 32,
          (keySchedule s.cfg.tables key).2.setWidth 32, statusWord { s with kvalid := true, lastop := 1 }]) :=
  ⟨_, hostRun_writeKey (hostRun_writeDin (hostRun_cmd (exec_enc_runs herr)
    (hostRun_rd (hostRun_rd (hostRun_rd (hostRun_rd (hostRun_nil _)))))))⟩

/-- The operands written, DEC, and the block and STATUS read back (R172). -/
theorem hostRun_dec {s : State} (herr : s.err = 0) (key : Key) (b : Block) :
    ∃ t, hostRun [wr .key (key.setWidth 32), wr .din (b.setWidth 32), cmd .dec, rd .dout, rd .status] s
      = .next (t, [(decrypt s.cfg.tables b key).setWidth 32,
          statusWord { s with kvalid := true, lastop := 2 }]) :=
  ⟨_, hostRun_writeKey (hostRun_writeDin (hostRun_cmd (exec_dec_runs herr)
    (hostRun_rd (hostRun_rd (hostRun_nil _)))))⟩

end Sys2Proof.Machine

namespace Sys2Proof.Proofs
open Sys2Proof Sys2Proof.Machine

/-- Settles O34: the circuit undoes itself when the two subkeys are swapped, in either direction. -/
theorem decryptUndoesEncrypt : Obligations.DecryptUndoesEncrypt :=
  fun _ hundoes b key => ⟨decrypt_encrypt hundoes b key, encrypt_decrypt hundoes b key⟩

/-- Settles O9: ENC is `encEffect` or, locked out, nothing; the examples are read through the registers. -/
theorem encEncryptsDin : Obligations.EncEncryptsDin := by
  refine ⟨decode_encode_command .enc, fun s herr => ?effect, fun _ he => exec_locked he (.inr (.inl rfl)),
    fun s herr => ⟨encEffect s, exec_enc_runs herr, ?twice⟩, ?reset, ?worked⟩
  case effect => rw [exec_enc_runs herr, encEffect, deriveSubkeys, encrypt_eq_crypt]
  case twice => rw [exec_enc_runs (s := encEffect s) herr, encEffect_encEffect]
  case reset =>
    have hdout : encrypt State.reset.cfg.tables State.reset.din State.reset.key = 0xF0 := encrypt_zero_default
    obtain ⟨t, hrun⟩ := hostRun_enc_dout (s := State.reset) rfl
    rw [hdout] at hrun
    exact ⟨t, hrun⟩
  case worked =>
    have hdout : encrypt State.reset.cfg.tables 0xA5 0x282 = 0xCA := encrypt_example
    have hkeys : keySchedule State.reset.cfg.tables 0x282 = (0xA4, 0x43) := keySchedule_example
    have hstatus : statusWord { State.reset with kvalid := true, lastop := 1 } = 0x18 := by decide
    obtain ⟨t, hrun⟩ := hostRun_enc (s := State.reset) rfl 0x282 0xA5
    rw [hdout, hkeys, hstatus] at hrun
    exact ⟨t, hrun⟩

/-- Settles O10: DEC is `decEffect` or, locked out, nothing; the example is read through the registers. -/
theorem decDecryptsDin : Obligations.DecDecryptsDin := by
  refine ⟨decode_encode_command .dec, fun s herr => ?effect,
    fun _ he => exec_locked he (.inr (.inr (.inl rfl))),
    fun s herr => ⟨decEffect s, exec_dec_runs herr, ?twice⟩, ?worked⟩
  case effect => rw [exec_dec_runs herr, decEffect, deriveSubkeys, decrypt_eq_crypt]
  case twice => rw [exec_dec_runs (s := decEffect s) herr, decEffect_decEffect]
  case worked =>
    have hdout : decrypt State.reset.cfg.tables 0xCA 0x282 = 0xA5 := decrypt_example
    have hstatus : statusWord { State.reset with kvalid := true, lastop := 2 } = 0x28 := by decide
    obtain ⟨t, hrun⟩ := hostRun_dec (s := State.reset) rfl 0x282 0xCA
    rw [hdout, hstatus] at hrun
    exact ⟨t, hrun⟩

end Sys2Proof.Proofs
end

section
/-! PROOFS. The functions of the text codec (spec/44_text_codec.md rules R180 to R185) and the driver's checks
(spec/60_exceptions.md rules R231, R232). -/

namespace Sys2Proof.Machine

/-! ### Characters and code points -/

theorem codePoints_supported {text : List Char} (h : ∀ c ∈ text, c.toNat ≤ 255) :
    codePoints text = .ok (text.map fun c => BitVec.ofNat 8 c.toNat) :=
  if_pos (by simpa using h)

/-- One character above 255 refuses the whole string (R184). -/
theorem codePoints_unsupported {text : List Char} (h : ∃ c ∈ text, 255 < c.toNat) :
    codePoints text = .error .unsupportedCharacter :=
  if_neg (by simpa using h)

/-- A block is the code point of a character of its own: those below 256 are no surrogates (R182). -/
theorem toNat_charOfNat_block (b : Block) : (Char.ofNat b.toNat).toNat = b.toNat := by
  have hvalid : b.toNat.isValidChar := .inl (b.isLt.trans (by decide))
  rw [Char.toNat_ofNat, if_pos hvalid]

/-- The character of a single-byte code point is the one it was taken from (R182). -/
theorem charOfNat_codePoint {c : Char} (h : c.toNat ≤ 255) : Char.ofNat (BitVec.ofNat 8 c.toNat).toNat = c := by
  rw [BitVec.toNat_ofNat, Nat.mod_eq_of_lt (by omega), Char.ofNat_toNat]

/-- The strings that the codec answers are strings it accepts, with the same blocks (R182, R185). -/
theorem codePoints_characters (bs : List Block) : codePoints (characters bs) = .ok bs := by
  have hbyte : ∀ c ∈ characters bs, c.toNat ≤ 255 := by
    intro c hc
    obtain ⟨b, -, rfl⟩ := List.mem_map.1 hc
    rw [toNat_charOfNat_block]
    exact Nat.le_of_lt_succ b.isLt
  rw [codePoints_supported hbyte, characters, List.map_map]
  simp [Function.comp_def, toNat_charOfNat_block]

/-- A single-byte string is spelled by its own code points (R182). -/
theorem characters_codePoints {text : List Char} (h : ∀ c ∈ text, c.toNat ≤ 255) :
    characters (text.map fun c => BitVec.ofNat 8 c.toNat) = text := by
  rw [characters, List.map_map]
  exact (List.map_congr_left fun c hc => charOfNat_codePoint (h c hc)).trans text.map_id

/-! ### A text through a function of blocks -/

/-- Every code point through `f`, one by one and in order: what `encryptText` and `decryptText` share (R180,
R181). -/
def textThrough (f : Block → Block) (text : List Char) : Checked (List Char) :=
  match codePoints text with
  | .ok bs => .ok (characters (bs.map f))
  | .error e => .error e

theorem encryptText_eq_textThrough (t : Tables) (text : List Char) (key : Key) :
    encryptText t text key = textThrough (fun b => encrypt t b key) text := rfl

theorem decryptText_eq_textThrough (t : Tables) (text : List Char) (key : Key) :
    decryptText t text key = textThrough (fun b => decrypt t b key) text := rfl

theorem textThrough_of_ok {text : List Char} {bs : List Block} (h : codePoints text = .ok bs)
    (f : Block → Block) : textThrough f text = .ok (characters (bs.map f)) := by
  rw [textThrough, h]

theorem textThrough_of_error {text : List Char} {e : DriverError} (h : codePoints text = .error e)
    (f : Block → Block) : textThrough f text = .error e := by
  rw [textThrough, h]

/-- A function of blocks and one that undoes it: the text comes back (R185). -/
theorem textThrough_undone {f g : Block → Block} (hg : Function.LeftInverse g f) {text : List Char}
    (h : ∀ c ∈ text, c.toNat ≤ 255) :
    ∃ cipher, textThrough f text = .ok cipher ∧ cipher.length = text.length
      ∧ textThrough g cipher = .ok text := by
  refine ⟨_, textThrough_of_ok (codePoints_supported h) f, by simp [characters], ?_⟩
  rw [textThrough_of_ok (codePoints_characters _) g, List.map_map, hg.comp_eq_id, List.map_id, characters_codePoints h]

/-! ### The driver's checks -/

/-- The length is looked at first (log entry 11). -/
theorem parseBits_of_length_ne {w : Nat} {text : List Char} (h : text.length ≠ w) :
    parseBits w text = .error .widthMismatch := if_pos h

theorem parseBits_of_bad_symbol {w : Nat} {text : List Char} (hlen : text.length = w)
    (h : ∃ c ∈ text, c ≠ '0' ∧ c ≠ '1') : parseBits w text = .error .invalidSymbol := by
  rw [parseBits, if_neg (not_not.2 hlen), if_neg (by simpa using h)]

@[simp] theorem checkedThen_ok {α β : Type} (a : α) (call : α → HostProgram (Checked β)) :
    checkedThen (.ok a) call = call a := rfl

/-- A call whose operand is rejected makes no access (R184, R265). -/
@[simp] theorem checkedThen_error {α β : Type} (e : DriverError) (call : α → HostProgram (Checked β)) :
    checkedThen (.error e) call = .done (.error e) := rfl

theorem textCall_of_ok {text : List Char} {bs : List Block} (h : codePoints text = .ok bs) (i : Instr)
    (key : Key) : textCall i text key = mapProgram asText (codec i key bs) := by
  rw [textCall, h, checkedThen_ok]

theorem textCall_of_error {text : List Char} {e : DriverError} (h : codePoints text = .error e) (i : Instr)
    (key : Key) : textCall i text key = .done (.error e) := by
  rw [textCall, h, checkedThen_error]

end Sys2Proof.Machine

namespace Sys2Proof.Proofs
open Sys2Proof Sys2Proof.Machine

/-- Settles O59: the cipher is undone block by block, and a single-byte string is its code points. -/
theorem textRoundTrip : Obligations.TextRoundTrip := by
  intro t text key hundoes hbyte
  simp only [encryptText_eq_textThrough, decryptText_eq_textThrough]
  exact textThrough_undone (fun b => decrypt_encrypt hundoes b key) hbyte

/-- Settles O60: each rejected operand ends its call at the check, before the first access. -/
theorem driverRejectsBadStrings : Obligations.DriverRejectsBadStrings := by
  refine ⟨fun t text key hbad => ?characters, fun _ _ => parseBits_of_length_ne,
    fun _ _ => parseBits_of_bad_symbol, by decide, fun k e hk => ?key, fun b k e hb => ?block⟩
  case characters =>
    have hpoints := codePoints_unsupported hbad
    exact ⟨textThrough_of_error hpoints _, textThrough_of_error hpoints _, textCall_of_error hpoints _ _,
      textCall_of_error hpoints _ _⟩
  case key =>
    refine ⟨by rw [callGenerateSubkeys, hk, checkedThen_error], fun b x hb => ⟨?_, ?_⟩⟩
    · rw [callEncryptBlock, hb, checkedThen_ok, hk, checkedThen_error]
    · rw [callDecryptBlock, hb, checkedThen_ok, hk, checkedThen_error]
  case block =>
    refine ⟨by rw [callEncryptBlock, hb, checkedThen_error], by rw [callDecryptBlock, hb, checkedThen_error],
      fun wait polls c x => ⟨by rw [callBruteForce, hb, checkedThen_error], fun hc => ?_⟩⟩
    rw [callBruteForce, hc, checkedThen_ok, hb, checkedThen_error]

end Sys2Proof.Proofs
end

section
/-! PROOFS. The host loop of the text codec on the machine, with scanner turns between the accesses
(spec/44_text_codec.md rules R183, R184; spec/20_memory.md rules R77, R86). -/

namespace Sys2Proof.Machine

/-! ### Programs whose answer is mapped -/

theorem runProgram_mapProgram {α β : Type} (f : α → β) (p : HostProgram α) (turns : Nat → Nat) (s : State) :
    runProgram turns (mapProgram f p) s = andThen (runProgram turns p s) fun r => .next (r.1, f r.2) := by
  induction p generalizing turns s with
  | done a => rfl
  | read off next ih =>
    simp only [mapProgram, runProgram]
    cases hostRun (List.replicate (turns 0) .trial ++ [.read off]) s with
    | next r => exact ih ..
    | fault e => rfl
    | refused e => rfl
  | write off v next ih =>
    simp only [mapProgram, runProgram]
    cases hostRun (List.replicate (turns 0) .trial ++ [.write off v]) s with
    | next r => exact ih ..
    | fault e => rfl
    | refused e => rfl
  | sample next ih =>
    simp only [mapProgram, runProgram]
    cases hostRun (List.replicate (turns 0) .trial) s with
    | next r => exact ih ..
    | fault e => rfl
    | refused e => rfl

/-- The rule of a mapped answer. -/
theorem Yields.map {α β : Type} {turns : Nat → Nat} {p : HostProgram α} {s : State} {Q : State → β → Prop}
    (f : α → β) (h : Yields turns p s fun t a => Q t (f a)) : Yields turns (mapProgram f p) s Q := by
  intro hsafe
  obtain ⟨t, a, hrun, hq⟩ := h hsafe
  exact ⟨t, f a, by rw [runProgram_mapProgram, hrun, andThen_next], hq⟩

/-! ### The loop with ERR = 0 -/

/-- The rule of the loop: it hands the function of every block, in order, to what follows it (R183). -/
theorem yields_codecBlocks {cfg : Config} {key : Key} {i : Instr} {f : Tables → Block → Key → Block}
    (hf : computes i f) {finish : List Block → HostProgram (Checked (List Block))}
    {Q : State → Checked (List Block) → Prop} (blocks out : List Block)
    (hfinish : ∀ turns t, readyWith cfg key t →
      Yields turns (finish (out ++ blocks.map fun b => f cfg.tables b key)) t Q)
    {turns : Nat → Nat} {s : State} (hs : readyWith cfg key s) :
    Yields turns (codecBlocks i blocks out finish) s Q := by
  induction blocks generalizing out turns s with
  | nil => simpa [codecBlocks] using hfinish turns s hs
  | cons b rest ih =>
    intro hsafe
    obtain ⟨t, hrun, hsafe', hready⟩ := runProgram_block hf hsafe hs b fun d =>
      codecBlocks i rest (out ++ [d.setWidth 8]) finish
    rw [codecBlocks, hrun, setWidth_setWidth_word _ (by decide)]
    exact ih (out ++ [f cfg.tables b key]) (by simpa using hfinish) hready hsafe'

/-- The codec passes its check and answers the function of every block, in order (R183). -/
theorem yields_codec {i : Instr} {f : Tables → Block → Key → Block} (hf : computes i f) {turns : Nat → Nat}
    {s : State} (herr : s.err = 0) (key : Key) (blocks : List Block) :
    Yields turns (codec i key blocks) s fun _ a =>
      a = .ok (blocks.map fun b => f s.cfg.tables b key) := by
  refine .writeKey herr fun t hready => yields_codecBlocks hf blocks [] (fun turns u hu => ?_) hready
  refine .read fun v hv => ?_
  obtain ⟨-, herr', -⟩ := hu.kept hv.engineKept
  obtain ⟨-, -, hany, -⟩ := statusWord_fields v
  rw [if_neg (by rw [readReg, hany, errAny_of_zero herr']; decide)]
  exact .done rfl

/-- A text through the block answers the text through the function, a refused string included (R183, R184). -/
theorem yields_textCall {i : Instr} {f : Tables → Block → Key → Block} (hf : computes i f) {turns : Nat → Nat}
    {s : State} (herr : s.err = 0) (text : List Char) (key : Key) :
    Yields turns (textCall i text key) s fun _ a =>
      a = textThrough (fun b => f s.cfg.tables b key) text := by
  cases hpoints : codePoints text with
  | ok bs =>
    rw [textCall_of_ok hpoints, textThrough_of_ok hpoints]
    refine .map asText fun hsafe => ?_
    obtain ⟨t, _, hrun, rfl⟩ := yields_codec hf herr key bs hsafe
    exact ⟨t, _, hrun, rfl⟩
  | error e =>
    rw [textCall_of_error hpoints, textThrough_of_error hpoints]
    exact .done rfl

/-! ### The loop with ERR not 0 -/

/-- A read before a program that fails whatever it gave. -/
theorem rdThen_failsFrom {α : Type} {P : State → Prop} {r : Reg} {next : Word → HostProgram (Checked α)}
    (hP : TurnStable P) (hnext : ∀ w, FailsFrom P (next w)) : FailsFrom P (rdThen r next) :=
  fun _ _ hs => .read fun u hu => hnext _ _ u (hP.turns hu hs)

/-- The codec's check at the end voids the result where ERRANY is not 0 (R183). -/
theorem voidCheck_failsFrom {α : Type} {P : State → Prop} (hP : TurnStable P) (herr : ∀ s, P s → s.err ≠ 0)
    (passed : HostProgram (Checked α)) :
    FailsFrom P (rdThen .status fun status => if errAnyBit status then failCall else passed) := by
  intro turns s hs
  refine .read fun u hu => ?_
  have hu' : P u := hP.turns hu hs
  obtain ⟨-, -, hany, -⟩ := statusWord_fields u
  rw [if_pos (by rw [readReg, hany, errAny_of_ne_zero (herr u hu')])]
  exact failCall_failsFrom hP _ u hu'

/-- The loop, its commands all dropped, before a program that fails whatever the loop read (R238). -/
theorem codecBlocks_failsFrom {e : BitVec 4} (he : e ≠ 0) {i : Instr} (hi : i = .enc ∨ i = .dec)
    {finish : List Block → HostProgram (Checked (List Block))}
    (hfinish : ∀ out, FailsFrom (fun s => s.err = e) (finish out)) (blocks out : List Block) :
    FailsFrom (fun s => s.err = e) (codecBlocks i blocks out finish) := by
  have hP := errIs_stable e
  induction blocks generalizing out with
  | nil => exact hfinish out
  | cons b rest ih =>
    exact wrThen_failsFrom hP (fun s t hs hw => (writeReg_din_err hw).trans hs)
      (cmdThen_failsFrom hP (fun _ hs => hs ▸ he) (by tauto) (rdThen_failsFrom hP fun d => ih _))

theorem codec_failsFrom {e : BitVec 4} (he : e ≠ 0) {i : Instr} (hi : i = .enc ∨ i = .dec) (key : Key)
    (blocks : List Block) : FailsFrom (fun s => s.err = e) (codec i key blocks) := by
  have hP := errIs_stable e
  exact wrThen_failsFrom hP (fun s t hs hw => (writeReg_key_err hw).trans hs)
    (codecBlocks_failsFrom he hi (fun _ => voidCheck_failsFrom hP (fun _ hs => hs ▸ he) _) blocks [])

end Sys2Proof.Machine

namespace Sys2Proof.Proofs
open Sys2Proof Sys2Proof.Machine

/-- Settles O58: by induction on the blocks, with ERR = 0 kept along the loop, or ERR not 0 kept along it. -/
theorem codecLoopReturnsEveryBlock : Obligations.CodecLoopReturnsEveryBlock := by
  intro s turns key bs text hsafe
  refine ⟨fun herr => ⟨?enc, ?dec, ?encText, ?decText⟩, fun he i hi => ?void⟩
  case enc =>
    obtain ⟨t, _, hrun, rfl⟩ := yields_codec enc_computes herr key bs hsafe
    exact ⟨t, hrun⟩
  case dec =>
    obtain ⟨t, _, hrun, rfl⟩ := yields_codec dec_computes herr key bs hsafe
    exact ⟨t, hrun⟩
  case encText =>
    obtain ⟨t, _, hrun, rfl⟩ := yields_textCall enc_computes herr text key hsafe
    exact ⟨t, hrun⟩
  case decText =>
    obtain ⟨t, _, hrun, rfl⟩ := yields_textCall dec_computes herr text key hsafe
    exact ⟨t, hrun⟩
  case void =>
    obtain ⟨t, _, hrun, ht, u, hu, rfl⟩ := codec_failsFrom he hi key bs turns s rfl hsafe
    exact ⟨t, hu ▸ hrun, ht⟩

end Sys2Proof.Proofs
end

section
/-! PROOFS. One trial of the scanner field by field, the reports of a scan, its length and its result, and the
independence of the engine and the scanner (spec/45_key_search.md rules R190 to R200, R205, R208). -/

namespace Sys2Proof.Machine

/-! ### A trial, field by field -/

/-- A trial whose key matches writes it to the next MATCH cell (R197). -/
theorem TurnCase.results_of_match {s t : State} (hc : TurnCase s t) (hb : s.sbusy = true)
    (hm : trialMatches s = true) :
    t.mcount.toNat = s.mcount.toNat + 1
      ∧ t.matchMem = matchWrite s.matchMem s.mcount.toNat (trialKey s) := by
  cases hc with
  | idle hidle => exact absurd (hidle.symm.trans hb) (by decide)
  | missed _ _ hmiss => exact absurd (hmiss.symm.trans hm) (by decide)
  | matched _ _ _ hcount =>
    rw [advanceScan_mcount, appendMatch_mcount_toNat hcount, advanceScan_matchMem, appendMatch_matchMem]
    exact ⟨rfl, rfl⟩

/-- A trial whose key does not match leaves the results (R196). -/
theorem TurnCase.results_of_miss {s t : State} (hc : TurnCase s t) (hm : trialMatches s ≠ true) :
    t.mcount = s.mcount ∧ t.matchMem = s.matchMem := by
  cases hc with
  | idle hidle => exact ⟨rfl, rfl⟩
  | missed => exact ⟨advanceScan_mcount s, advanceScan_matchMem s⟩
  | matched _ _ hmatch => exact absurd hmatch hm

/-- A trial stops the scan exactly when it is that of key 1023 (R199), and never aborts it. -/
theorem TurnCase.flags_of_busy {s t : State} (hc : TurnCase s t) (hb : s.sbusy = true) :
    t.sbusy = (s.kcnt.toNat != 1023) ∧ t.sabort = s.sabort := by
  cases hc with
  | idle hidle => exact absurd (hidle.symm.trans hb) (by decide)
  | missed => by_cases hlast : s.kcnt.toNat = 1023 <;> simp [hlast, hb]
  | matched => by_cases hlast : s.kcnt.toNat = 1023 <;> simp [hlast, hb]

/-- While a scan runs the turn is a trial, which tests one key (R196, R199). -/
theorem TurnCase.counts_of_busy {s t : State} (hc : TurnCase s t) (hb : s.sbusy = true) :
    s.kcnt.toNat ≤ 1023 ∧ t.kcnt.toNat = s.kcnt.toNat + 1
      ∧ t.sdone = (s.sdone || s.kcnt.toNat == 1023) := by
  rcases hc.reports with ⟨hidle, -⟩ | ⟨-, hk, hkcnt, hsdone, -, -⟩
  · exact absurd (hidle.symm.trans hb) (by decide)
  · refine ⟨hk, hkcnt, hsdone.trans ?_⟩
    by_cases hlast : s.kcnt.toNat = 1023 <;> simp [hlast]

/-- The trials of the interval report, and that of key 1023 does (R198, R199). -/
theorem TurnCase.progress_of_busy {s t : State} (hc : TurnCase s t) (hb : s.sbusy = true) :
    t.progress.toNat = if s.kcnt.toNat = 1023 then 100
      else if s.kcnt.toNat % s.cfg.progInterval = 0 then s.kcnt.toNat * 100 / 1024
      else s.progress.toNat := by
  rcases hc.reports with ⟨hidle, -⟩ | ⟨-, hk, -, -, -, hprogress⟩
  · exact absurd (hidle.symm.trans hb) (by decide)
  · simp only [hprogress, reportDue, beq_iff_eq]
    split_ifs
    · rfl
    · exact percentAt_toNat (by omega)
    · rfl

/-- A report sets IP.PROG, and the trial of key 1023 both bits of IP (R198, R199). -/
theorem TurnCase.ip_of_busy {s t : State} (hc : TurnCase s t) (hb : s.sbusy = true) :
    t.ip = if s.kcnt.toNat = 1023 then 0b11
      else if s.kcnt.toNat % s.cfg.progInterval = 0 then s.ip ||| 0b10 else s.ip := by
  have hboth : ∀ ip : BitVec 2, ip ||| 0b10 ||| 0b01 = 0b11 := by decide
  rcases hc.reports with ⟨hidle, -⟩ | ⟨-, -, -, -, hip, -⟩
  · exact absurd (hidle.symm.trans hb) (by decide)
  · simpa only [reportDue, beq_iff_eq, ipProg, ipDone, hboth] using hip

/-! ### The reports of a scan with the default interval -/

/-- The trials that report when PROG_INTERVAL is 100, with what they report (R200). -/
def scanReports : List (Nat × Nat) :=
  [(0, 0), (100, 9), (200, 19), (300, 29), (400, 39), (500, 48), (600, 58), (700, 68), (800, 78), (900, 87),
    (1000, 97), (1023, 100)]

/-- The last report is that of completion, the others are floors of R198. -/
theorem scanReports_values : ∀ r ∈ scanReports,
    r.1 = 1023 ∧ r.2 = 100 ∨ r.1 ≠ 1023 ∧ r.1 % 100 = 0 ∧ r.1 * 100 / 1024 = r.2 := by decide

theorem quiet_of_not_mem_scanReports {k : Nat} (hk : k ≤ 1023) (h : k ∉ scanReports.map Prod.fst) :
    k ≠ 1023 ∧ k % 100 ≠ 0 := by
  simp only [scanReports, List.map_cons, List.map_nil, List.mem_cons, List.not_mem_nil, or_false,
    not_or] at h
  omega

/-! ### The length of a scan -/

/-- A scan that runs or is done, under the invariant and with nothing scheduled, that has tested `k` keys. -/
structure SilentScan (k : Nat) (s : State) : Prop where
  inv : StateInv s
  silent : s.schedule = []
  active : s.sbusy = true ∨ s.sdone = true
  kcnt : s.kcnt.toNat = k

/-- Such a scan runs until all keys are tested, and is done then (R50 item 4). -/
theorem SilentScan.flags {k : Nat} {s : State} (h : SilentScan k s) :
    k ≤ 1024 ∧ (s.sbusy = true ↔ k < 1024) ∧ (s.sdone = true ↔ k = 1024) := by
  have hk := h.kcnt
  rcases h.active with hb | hdone
  · have hle := h.inv.scan.busy_kcnt hb
    have hnot := h.inv.scan.busy_not_done hb
    exact ⟨by omega, iff_of_true hb (by omega), iff_of_false (by simp [hnot]) (by omega)⟩
  · have hall := h.inv.scan.done_kcnt hdone
    have hidle : s.sbusy ≠ true := fun hb => absurd (h.inv.scan.busy_kcnt hb) (by omega)
    exact ⟨by omega, iff_of_false hidle (by omega), iff_of_true hdone (by omega)⟩

/-- With a silent host a step of a running scan is a trial (R196, log entry 3). -/
theorem SilentScan.step {k : Nat} {s : State} (h : SilentScan k s) (hk : k < 1024) :
    ∃ t, step s = .next t ∧ SilentScan (k + 1) t := by
  have hb : s.sbusy = true := h.flags.2.1.2 hk
  obtain ⟨t, ht⟩ := scannerTurn_next (s := { s with response := .none }) h.inv.scan.trial_in_range
  have hc := scannerTurn_cases ht
  obtain ⟨-, hkcnt, -⟩ := hc.counts_of_busy hb
  exact ⟨t, (step_of_schedule_nil h.silent).trans ht, hc.keeps_inv (h.inv.withPort s.schedule .none),
    hc.cfg_and_schedule.2.trans h.silent, hc.active h.active, by rw [hkcnt, h.kcnt]⟩

theorem SilentScan.run {n k : Nat} {s : State} (h : SilentScan k s) (hn : k + n ≤ 1024) :
    ∃ t, Sys2Proof.core.run n s = .next t ∧ SilentScan (k + n) t := by
  induction n generalizing k s with
  | zero => exact ⟨s, rfl, h⟩
  | succ n ih =>
    obtain ⟨u, hstep, hu⟩ := h.step (by omega)
    obtain ⟨t, hrun, ht⟩ := ih hu (by omega)
    have hfirst : Sys2Proof.core.run (n + 1) s = Sys2Proof.core.run n u := by
      simp only [Host.Core.run, core, hstep]
    exact ⟨t, hfirst.trans hrun, by rwa [Nat.add_right_comm, Nat.add_assoc] at ht⟩

/-! ### The result of a scan -/

/-- The matches among all keys are the keys that encrypt the plaintext to the ciphertext (R190). -/
theorem mem_searchKeys {t : Tables} {p c : Block} {key : Key} :
    key ∈ searchKeys t p c ↔ encrypt t p key = c := by
  have hkey : key ∈ (List.range keyspace).map (BitVec.ofNat 10) :=
    List.mem_map.2 ⟨key.toNat, List.mem_range.2 key.isLt, by simp⟩
  rw [searchKeys, matchesBelow, List.mem_filter, beq_iff_eq, and_iff_right hkey]

/-! ### What the scanner's turn depends on -/

/-- The cases of the scanner's turn say all of it: each is what the turn answers. -/
theorem TurnCase.turn {s t : State} (hc : TurnCase s t) : scannerTurn s = .next t := by
  cases hc with
  | idle hb => exact scannerTurn_of_idle hb
  | missed hb hk hm => rw [scannerTurn_of_busy hb, trial, if_neg (Nat.not_le.2 hk), if_neg (by simp [hm])]
  | matched hb hk hm hcount =>
    rw [scannerTurn_of_busy hb, trial, if_neg (Nat.not_le.2 hk), if_pos hm, if_neg (Nat.not_le.2 hcount)]

section
variable {s u : State}

/-- The trial key and the match are read from the scanner's part and TABLES (R194, R195). -/
theorem sameScanner.trial_congr (h : sameScanner s u) (hcfg : s.cfg = u.cfg) :
    trialKey u = trialKey s ∧ trialMatches u = trialMatches s := by
  obtain ⟨hspt, hsct, hkcnt, -⟩ := h
  have hkey : trialKey u = trialKey s := by rw [trialKey, hkcnt, trialKey]
  exact ⟨hkey, by rw [trialMatches, hkey, hspt, hsct, ← hcfg, trialMatches]⟩

theorem sameScanner.appendMatch (h : sameScanner s u) (hcfg : s.cfg = u.cfg) :
    sameScanner (appendMatch s) (appendMatch u) := by
  obtain ⟨hkey, -⟩ := h.trial_congr hcfg
  obtain ⟨hspt, hsct, hkcnt, hmcount, hprogress, hsbusy, hsdone, hsabort, hmem⟩ := h
  simp [sameScanner, hspt, hsct, hkcnt, hmcount, hprogress, hsbusy, hsdone, hsabort, hmem, hkey]

theorem sameScanner.advanceScan (h : sameScanner s u) (hcfg : s.cfg = u.cfg) :
    sameScanner (advanceScan s) (advanceScan u) := by
  obtain ⟨hspt, hsct, hkcnt, hmcount, hprogress, hsbusy, hsdone, hsabort, hmem⟩ := h
  simp [sameScanner, hspt, hsct, hkcnt, hmcount, hprogress, hsbusy, hsdone, hsabort, hmem, hcfg]

/-- The scanner's turn depends on the scanner's part and the configuration alone (R208). -/
theorem TurnCase.of_sameScanner {t : State} (hc : TurnCase s t) (h : sameScanner s u)
    (hcfg : s.cfg = u.cfg) : ∃ w, TurnCase u w ∧ sameScanner t w := by
  obtain ⟨-, hmatches⟩ := h.trial_congr hcfg
  obtain ⟨-, -, hkcnt, hmcount, -, hsbusy, -⟩ := id h
  cases hc with
  | idle hb => exact ⟨u, .idle (hsbusy.trans hb), h⟩
  | missed hb hk hm =>
    exact ⟨_, .missed (hsbusy.trans hb) (hkcnt ▸ hk) (hmatches.trans hm), h.advanceScan hcfg⟩
  | matched hb hk hm hcount =>
    exact ⟨_, .matched (hsbusy.trans hb) (hkcnt ▸ hk) (hmatches.trans hm) (hmcount ▸ hcount),
      (h.appendMatch hcfg).advanceScan hcfg⟩

/-! ### What the engine depends on -/

/-- The engine's commands leave the scanner's part (R208). -/
theorem ExecCase.sameScanner_of_engine {t : State} {i : Instr} (hc : ExecCase s i t)
    (hi : i = .keygen ∨ i = .enc ∨ i = .dec) : sameScanner s t := by
  cases hc with
  | keygen | enc | dec | dropped => exact sameScanner_refl s
  | _ => simp at hi

/-- A write to KEY or DIN depends on the engine's part alone (R22, R23, R208). -/
theorem sameEngine.writeReg (h : sameEngine s u) {r : Reg} (hr : r = .key ∨ r = .din) (v : Word) :
    ∃ t w, writeReg r v s = .next t ∧ writeReg r v u = .next w ∧ sameEngine t w := by
  obtain ⟨hkey, hdin, hdout, hk1, hk2, hkvalid, hlastop⟩ := id h
  rcases hr with rfl | rfl
  · rcases Nat.lt_or_ge v.toNat (2 ^ 10) with hv | hv
    · exact ⟨_, _, writeReg_key_fits hv s, writeReg_key_fits hv u, rfl, hdin, hdout, hk1, hk2, rfl, rfl⟩
    · exact ⟨_, _, writeReg_key_wide hv s, writeReg_key_wide hv u, h⟩
  · rcases Nat.lt_or_ge v.toNat (2 ^ 8) with hv | hv
    · exact ⟨_, _, writeReg_din_fits hv s, writeReg_din_fits hv u, hkey, rfl, hdout, hk1, hk2, hkvalid, rfl⟩
    · exact ⟨_, _, writeReg_din_wide hv s, writeReg_din_wide hv u, h⟩

/-- With ERR = 0 the engine's commands depend on the engine's part and TABLES alone (R146, R171, R172, R208). -/
theorem sameEngine.exec (h : sameEngine s u) (hcfg : s.cfg = u.cfg) (hs : s.err = 0) (hu : u.err = 0)
    {i : Instr} (hi : i = .keygen ∨ i = .enc ∨ i = .dec) :
    ∃ t w, exec i s = .next t ∧ exec i u = .next w ∧ sameEngine t w := by
  obtain ⟨hkey, hdin, hdout, hk1, hk2, hkvalid, hlastop⟩ := h
  rcases hi with rfl | rfl | rfl
  · refine ⟨_, _, exec_keygen_runs hs, exec_keygen_runs hu, ?_⟩
    simp [sameEngine, hkey, hdin, hdout, hlastop, hcfg]
  · refine ⟨_, _, exec_enc_runs hs, exec_enc_runs hu, ?_⟩
    simp [sameEngine, hkey, hdin, hcfg]
  · refine ⟨_, _, exec_dec_runs hs, exec_dec_runs hu, ?_⟩
    simp [sameEngine, hkey, hdin, hcfg]

end

end Sys2Proof.Machine

namespace Sys2Proof.Proofs
open Sys2Proof Sys2Proof.Machine

/-- Settles O36: the turn is a trial, and its fields are those of the two kinds of trial. -/
theorem trialTestsOneKey : Obligations.TrialTestsOneKey := by
  intro s hb hk hm
  obtain ⟨t, ht⟩ := scannerTurn_next (s := s) fun _ => ⟨by omega, by omega⟩
  have hc := scannerTurn_cases ht
  obtain ⟨hsbusy, hsabort⟩ := hc.flags_of_busy hb
  obtain ⟨hcfg, hschedule⟩ := hc.cfg_and_schedule
  obtain ⟨hie, hspt, hsct⟩ := hc.operands_kept
  obtain ⟨-, herr, hengine⟩ := hc.keeps_engine
  obtain ⟨-, hkcnt, hsdone⟩ := hc.counts_of_busy hb
  refine ⟨t, ht, hkcnt, fun hmatch => ?matched, fun hmiss => ?missed, hc.progress_of_busy hb,
    hc.ip_of_busy hb, hsdone, hsbusy, hsabort, hspt, hsct, hengine, herr, hie, hcfg, hschedule, hc.response⟩
  case matched =>
    obtain ⟨hmcount, hmem⟩ := hc.results_of_match hb ((trialMatches_iff s).2 hmatch)
    rw [trialKey_eq] at hmem
    refine ⟨hmcount, matchCell_of_read ?_, fun i hi => ?_⟩
    · rw [hmem, matchRead_matchWrite_same]
    · rw [hmem, matchRead_matchWrite_other _ _ hi]
  case missed => exact hc.results_of_miss fun hmatch => hmiss ((trialMatches_iff s).1 hmatch)

/-- Settles O37: the twelve trials are those of a key that is a multiple of 100, and that of key 1023. -/
theorem progressReportsOfAScan : Obligations.ProgressReportsOfAScan := by
  refine ⟨fun s t hb hinterval hturn => ?scan, rfl, fun k hk => ?floor⟩
  case floor =>
    have hfloor := percentAt_toNat hk
    exact ⟨hfloor, by omega⟩
  case scan =>
    have hc := scannerTurn_cases hturn
    have hprogress := hc.progress_of_busy hb
    have hip := hc.ip_of_busy hb
    rw [hinterval.trans (show defaultConfig.progInterval = 100 from rfl)] at hprogress hip
    refine ⟨fun r hr hkey => ?_, fun hnot => ?_⟩
    · rw [hkey] at hprogress hip
      rcases scanReports_values r hr with ⟨hlast, hvalue⟩ | ⟨hlast, hdue, hvalue⟩
      · rw [hprogress, hip, if_pos hlast, if_pos hlast, hvalue]
        exact ⟨rfl, rfl⟩
      · rw [hprogress, hip, if_neg hlast, if_neg hlast, if_pos hdue, if_pos hdue, hvalue]
        exact ⟨rfl, by simp⟩
    · obtain ⟨hk, -⟩ := hc.counts_of_busy hb
      obtain ⟨hlast, hdue⟩ := quiet_of_not_mem_scanReports hk hnot
      rw [if_neg hlast, if_neg hdue] at hprogress hip
      exact ⟨BitVec.eq_of_toNat_eq hprogress, hip⟩

/-- Settles O40: the trial brings the matches up to date with KCNT, which is 1024 in a scan that is done. -/
theorem completedScanIsSearchKeys : Obligations.CompletedScanIsSearchKeys := by
  intro s t hinv hb hturn hdone
  have hc := scannerTurn_cases hturn
  obtain ⟨-, hspt, hsct⟩ := hc.operands_kept
  have hresult : matchList t = searchKeys s.cfg.tables s.spt s.sct := by
    rw [hc.matchList_of_busy hb hinv.results, (hc.keeps_inv hinv).scan.done_kcnt hdone,
      hc.cfg_and_schedule.1, hspt, hsct, searchKeys]
  exact ⟨hresult, fun key => hresult ▸ mem_searchKeys⟩

/-- Settles O42, by induction on the number of steps. -/
theorem aScanTakes1024Trials : Obligations.AScanTakes1024Trials := by
  intro s n hinv hb hkcnt hsilent hn
  have hstart : SilentScan 0 s := ⟨hinv, hsilent, .inl hb, by rw [hkcnt]; rfl⟩
  obtain ⟨t, hrun, ht⟩ := hstart.run (n := n) (by omega)
  rw [Nat.zero_add] at ht
  exact ⟨t, hrun, ht.kcnt, ht.flags.2⟩

/-- Settles O43: the frames of the engine and of the scanner, and what each depends on. -/
theorem engineAndScannerAreIndependent : Obligations.EngineAndScannerAreIndependent := by
  have register {off : Offset} (h : off = 0x0010 ∨ off = 0x0014) :
      ∃ r, off = regOffset r ∧ (r = .key ∨ r = .din) := by
    rcases h with rfl | rfl
    · exact ⟨.key, rfl, .inl rfl⟩
    · exact ⟨.din, rfl, .inr rfl⟩
  refine ⟨fun s t i hi ht => (exec_cases ht).sameScanner_of_engine hi, fun s t v hw => ?writes,
    fun s t ht => (scannerTurn_cases ht).keeps_engine.2.2, fun s u t hs hcfg ht => ?turn,
    fun s u t off v hoff hs ht => ?operands, fun s u t i hi hs hcfg hserr huerr ht => ?commands⟩
  case writes =>
    rcases hw with hw | hw
    · exact (memWrite_cases hw).sameScanner_of_other (by decide) (by decide) (by decide)
    · exact (memWrite_cases hw).sameScanner_of_other (by decide) (by decide) (by decide)
  case turn =>
    obtain ⟨w, hw, hsame⟩ := (scannerTurn_cases ht).of_sameScanner hs hcfg
    exact ⟨w, hw.turn, hsame⟩
  case operands =>
    obtain ⟨r, rfl, hr⟩ := register hoff
    obtain ⟨t', w, ht', hw, hsame⟩ := hs.writeReg hr v
    rw [memWrite_regOffset] at ht ⊢
    cases ht'.symm.trans ht
    exact ⟨w, hw, hsame⟩
  case commands =>
    obtain ⟨t', w, ht', hw, hsame⟩ := hs.exec hcfg hserr huerr hi
    cases ht'.symm.trans ht
    exact ⟨w, hw, hsame⟩

end Sys2Proof.Proofs
end

section
/-! PROOFS. The commands SEARCH and ABORT (spec/45_key_search.md rules R192, R193, R203; spec/60_exceptions.md rule
R238). -/

namespace Sys2Proof.Machine

/-- With ERR = 0 and no scan, SEARCH starts one (R192). -/
theorem exec_search_starts {s : State} (he : s.err = 0) (hb : s.sbusy = false) :
    exec .search s = .next (startScan s) := by
  have heffect : searchEffect s = startScan s := if_neg (by simp [hb])
  exact congrArg Host.Outcome.next ((unlessLocked_runs searchEffect he).trans heffect)

/-- With ERR = 0 and a scan running, SEARCH raises BUSY (R193). -/
theorem exec_search_busy {s : State} (he : s.err = 0) (hb : s.sbusy = true) :
    exec .search s = .next (raiseError .busy s) := by
  have heffect : searchEffect s = raiseError .busy s := if_pos hb
  exact congrArg Host.Outcome.next ((unlessLocked_runs searchEffect he).trans heffect)

/-- A running scan is stopped, whatever ERR holds (R203, R220). -/
theorem exec_abort_stops {s : State} (hb : s.sbusy = true) :
    exec .abort s = .next { s with sbusy := false, sabort := true } :=
  congrArg Host.Outcome.next (if_pos hb)

theorem exec_abort_idle {s : State} (hb : s.sbusy = false) : exec .abort s = .next s :=
  congrArg Host.Outcome.next (if_neg (by simp [hb]))

/-- A write to SPT or SCT of a block, with no scan running, at the head of a run (R27). -/
theorem hostRun_writeSpt {b : Block} {es : List Event} {s t : State} {ws : List Word} (hb : s.sbusy = false)
    (h : hostRun es { s with spt := b, response := .written } = .next (t, ws)) :
    hostRun (wr .spt (b.setWidth 32) :: es) s = .next (t, ws) := by
  have hw := (runEvent_wr .spt (b.setWidth 32) { s with response := .none }).trans
    (writeReg_pair_block (s := { s with response := .written }) hb b).1
  rw [hostRun_cons hw, h]
  rfl

theorem hostRun_writeSct {b : Block} {es : List Event} {s t : State} {ws : List Word} (hb : s.sbusy = false)
    (h : hostRun es { s with sct := b, response := .written } = .next (t, ws)) :
    hostRun (wr .sct (b.setWidth 32) :: es) s = .next (t, ws) := by
  have hw := (runEvent_wr .sct (b.setWidth 32) { s with response := .none }).trans
    (writeReg_pair_block (s := { s with response := .written }) hb b).2
  rw [hostRun_cons hw, h]
  rfl

/-- The pair written, SEARCH, and STATUS and the counters read back (R192). -/
theorem hostRun_search {s : State} (he : s.err = 0) (hb : s.sbusy = false) (p c : Block) :
    ∃ t, hostRun [wr .spt (p.setWidth 32), wr .sct (c.setWidth 32), cmd .search, rd .status, rd .kcnt,
        rd .mcount, rd .progress] s = .next (t, [statusWord (startScan s), 0, 0, 0]) :=
  ⟨_, hostRun_writeSpt hb (hostRun_writeSct hb (hostRun_cmd (exec_search_starts he hb)
    (hostRun_rd (hostRun_rd (hostRun_rd (hostRun_rd (hostRun_nil _)))))))⟩

end Sys2Proof.Machine

namespace Sys2Proof.Proofs
open Sys2Proof Sys2Proof.Machine

/-- Settles O11: SEARCH is `startScan`, dropped, or BUSY; the example is read through the registers. -/
theorem searchStartsAScan : Obligations.SearchStartsAScan := by
  refine ⟨decode_encode_command .search, fun s he hb => ⟨startScan s, exec_search_starts he hb, rfl, rfl⟩,
    fun s he => exec_locked he (by simp), fun s he hb => exec_search_busy he hb, ?worked⟩
  have hstatus : statusWord (startScan State.reset) = 1 := by decide
  obtain ⟨t, hrun⟩ := hostRun_search (s := State.reset) rfl rfl 0xA5 0xCA
  exact ⟨t, hstatus ▸ hrun⟩

/-- Settles O12: SEARCH raises BUSY, which locks the four commands out. -/
theorem searchWhileBusyRaisesBusy : Obligations.SearchWhileBusyRaisesBusy := by
  intro s he hb
  have hbusy : raiseError .busy s = { s with err := 0b0100 } := by
    rw [raiseError, he]
    rfl
  have hlocked : (raiseError .busy s).err ≠ 0 := by
    rw [raiseError_err, he]
    decide
  exact ⟨raiseError .busy s, exec_search_busy he hb, hbusy, exec_locked hlocked (by simp),
    exec_locked hlocked (by simp), exec_locked hlocked (by simp), exec_locked hlocked (by simp)⟩

/-- Settles O13. -/
theorem abortStopsTheScan : Obligations.AbortStopsTheScan :=
  ⟨decode_encode_command .abort, fun _ => exec_abort_stops, fun _ => exec_abort_idle⟩

end Sys2Proof.Proofs
end

section
/-! PROOFS. The control commands NOP and SRST (spec/46_control_commands.md rules R221, R222). -/

namespace Sys2Proof.Machine

/-- NOP has no effect, whatever ERR and SBUSY hold (R221). -/
theorem exec_nop (s : State) : exec .nop s = .next s := rfl

/-- SRST is the reset of the block, in every state (R222). -/
theorem exec_srst (s : State) : exec .srst s = .next (resetBlock s) := rfl

/-- The reset event is the same reset of the block (R260). -/
theorem runEvent_reset (s : State) : runEvent .reset s = .next (resetBlock s) := rfl

/-- After a reset STATUS is 0: it is what the register reads as (R51). -/
theorem statusWord_resetBlock (s : State) : statusWord (resetBlock s) = 0 :=
  readReg_resetBlock (r := .status) s (by decide)

end Sys2Proof.Machine

namespace Sys2Proof.Proofs
open Sys2Proof Sys2Proof.Machine

/-- Settles O7. -/
theorem nopChangesNothing : Obligations.NopChangesNothing :=
  ⟨decode_encode_command .nop, exec_nop⟩

/-- Settles O14: SRST and the reset event both answer `resetBlock`, whose fields are the ones written out. -/
theorem srstClearsEveryBit : Obligations.SrstClearsEveryBit :=
  ⟨decode_encode_command .srst, fun s =>
    ⟨resetBlock s, exec_srst s, rfl, irq_resetBlock s, statusWord_resetBlock s, runEvent_reset s⟩⟩

end Sys2Proof.Proofs
end

section
/-! PROOFS. The key schedule as wiring, its properties and its worked example (spec/41_key_schedule.md rules R141 to
R147). -/

namespace Sys2Proof.Machine

/-! ### Halves by position -/

theorem getMsbD_left {w : Nat} (v : BitVec (w + w)) {q : Nat} (hq : q < w) :
    (left v).getMsbD q = v.getMsbD q := by
  have hlow : w + w - (w + w - q) = q := by omega
  rw [left, BitVec.getMsbD_extractLsb', decide_eq_true hq, decide_eq_true (by omega), hlow, Bool.true_and,
    Bool.true_and]

theorem getMsbD_right {w : Nat} (v : BitVec (w + w)) {q : Nat} (hq : q < w) :
    (right v).getMsbD q = v.getMsbD (w + q) := by
  have hhigh : w + w - (0 + w - q) = w + q := by omega
  rw [right, BitVec.getMsbD_extractLsb', decide_eq_true hq, decide_eq_true (by omega), hhigh, Bool.true_and,
    Bool.true_and]

/-! ### The key schedule as wiring -/

/-- Where a position after P10 comes from once each half has been rotated by `n` (R142, R143). -/
def rotatedSource (n : Nat) (p : Fin 10) : Fin 10 :=
  if p.val < 5 then Fin.ofNat 10 ((p.val + n) % 5) else Fin.ofNat 10 (5 + (p.val - 5 + n) % 5)

/-- The wiring from the key to the subkey made of halves rotated by `n`: P8, the rotation and P10, each followed
back. -/
def subkeyTable (t : Tables) (n : Nat) : PermTable 10 8 :=
  Vector.ofFn fun q : Fin 8 => t.p10[rotatedSource n t.p8[q]]

/-- The two halves, each rotated by `n`, read at a position (R142, R143). -/
theorem getMsbD_rotated_halves (v : BitVec 10) (n : Nat) (p : Fin 10) :
    (rotateLeft (left (w := 5) v) n ++ rotateLeft (right (w := 5) v) n).getMsbD p
      = v.getMsbD (rotatedSource n p) := by
  have hmod (m : Nat) : m % 5 < 5 := Nat.mod_lt m (by decide)
  rw [BitVec.getMsbD_append]
  by_cases hp : p.val < 5
  · have hsource : (rotatedSource n p).val = (p.val + n) % 5 := by
      simp only [rotatedSource, if_pos hp, Fin.val_ofNat]
      omega
    rw [if_neg (by omega), getMsbD_rotateLeft _ _ hp, getMsbD_left _ (hmod _), hsource]
  · have hsource : (rotatedSource n p).val = 5 + (p.val - 5 + n) % 5 := by
      simp only [rotatedSource, if_neg hp, Fin.val_ofNat]
      omega
    rw [if_pos (by omega), getMsbD_rotateLeft _ _ (by omega), getMsbD_right _ (hmod _), hsource]

theorem compress_rotated_halves (t : Tables) (key : Key) (n : Nat) :
    compress t (rotateLeft (keyHalves t key).1 n) (rotateLeft (keyHalves t key).2 n)
      = permute key (subkeyTable t n) := by
  apply eq_of_getMsbD
  intro q hq
  have hentry : (subkeyTable t n)[q] = t.p10[rotatedSource n t.p8[q]] := by simp [subkeyTable]
  rw [compress, getMsbD_permute _ _ _ hq, keyHalves, getMsbD_rotated_halves,
    getMsbD_permute _ _ _ (Fin.isLt _), getMsbD_permute _ _ _ hq, hentry]
  rfl

/-- Both subkeys are wirings of the key: K1 of the halves rotated by 1, K2 of those rotated by 3 (R142 to R144). -/
theorem keySchedule_eq_permute (t : Tables) (key : Key) :
    keySchedule t key = (permute key (subkeyTable t 1), permute key (subkeyTable t 3)) := by
  rw [← compress_rotated_halves, ← compress_rotated_halves, ← rotateLeft_rotateLeft _ 1 2,
    ← rotateLeft_rotateLeft _ 1 2]
  rfl

/-! ### The wiring with the default TABLES -/

/-- The closed form of R144, in positions that count from 1. -/
theorem subkeyTable_default :
    (∀ q : Fin 8, ((subkeyTable defaultTables 1)[q]).val + 1 = [1, 7, 9, 4, 8, 3, 10, 6][q])
      ∧ ∀ q : Fin 8, ((subkeyTable defaultTables 3)[q]).val + 1 = [8, 3, 6, 5, 10, 2, 9, 1][q] := by
  decide +kernel

/-- Every key bit reaches one of the subkeys (R145 (d)). -/
theorem subkeyTable_default_covers (p : Fin 10) :
    ∃ q : Fin 8, (subkeyTable defaultTables 1)[q] = p ∨ (subkeyTable defaultTables 3)[q] = p := by
  revert p
  decide +kernel

/-- A permute's bit in the positions of the closed form. -/
theorem bitAt_permute_of_entry {m n : Nat} (v : BitVec m) {t : PermTable m n} {q p : Nat} (hq : q < n)
    (hp : t[q].val + 1 = p) : bitAt (permute v t) (q + 1) = bitAt v p := by
  rw [← hp, bitAt_succ, bitAt_succ, getMsbD_permute _ _ _ hq]

/-- Two vectors with the same permute agree at the positions it selects. -/
theorem getMsbD_eq_of_permute_eq {m n : Nat} {a b : BitVec m} {t : PermTable m n}
    (h : permute a t = permute b t) (q : Fin n) : a.getMsbD t[q] = b.getMsbD t[q] := by
  have hbit := congrArg (fun v : BitVec n => v.getMsbD q) h
  simpa only [getMsbD_permute _ _ _ q.isLt, Fin.getElem_fin] using hbit

end Sys2Proof.Machine

namespace Sys2Proof.Proofs
open Sys2Proof Sys2Proof.Machine

/-- Settles O30: the wiring of each subkey, with the default TABLES, is the list. -/
theorem subkeyBitsAreKeyBits : Obligations.SubkeyBitsAreKeyBits := by
  intro key
  rw [keySchedule_eq_permute]
  obtain ⟨hk1, hk2⟩ := subkeyTable_default
  exact ⟨fun q hq => bitAt_permute_of_entry key hq (hk1 ⟨q, hq⟩),
    fun q hq => bitAt_permute_of_entry key hq (hk2 ⟨q, hq⟩)⟩

/-- Settles O31: wiring passes through XOR and constants; the default wirings together read every key bit. -/
theorem keyScheduleIsLinearAndInjective : Obligations.KeyScheduleIsLinearAndInjective := by
  refine ⟨fun t a b => ?linear, fun t => ⟨keySchedule_zero t, ?allOnes⟩, fun a b hab => ?injective, ?collision⟩
  case linear => simp only [keySchedule_eq_permute, permute_xor]
  case allOnes =>
    rw [keySchedule_eq_permute, show (0x3FF : Key) = BitVec.allOnes 10 from rfl, permute_allOnes, permute_allOnes]
    rfl
  case injective =>
    rw [keySchedule_eq_permute, keySchedule_eq_permute] at hab
    obtain ⟨hk1, hk2⟩ := Prod.mk.inj hab
    apply eq_of_getMsbD
    intro p hp
    obtain ⟨q, hq | hq⟩ := subkeyTable_default_covers ⟨p, hp⟩
    · simpa only [hq] using getMsbD_eq_of_permute_eq hk1 q
    · simpa only [hq] using getMsbD_eq_of_permute_eq hk2 q
  case collision => exact ⟨0, 0x000, 0x025, by decide, by decide +kernel⟩

/-- Settles O29: the trace evaluated, stage by stage. -/
theorem keyScheduleWorkedExample : Obligations.KeyScheduleWorkedExample := by
  refine ⟨?p10, ?halves, ?rotateL1, ?rotateR1, ?join1, ?k1, ?rotateL2, ?rotateR2, ?join2, ?k2, keySchedule_example⟩
  all_goals decide +kernel

end Sys2Proof.Proofs
end

section
/-! PROOFS. The block cipher's worked encryptions, and encryption as a bijection (spec/43_block_cipher.md rules R173 to
R176). -/

namespace Sys2Proof.Proofs
open Sys2Proof Sys2Proof.Machine

/-- Settles O33: two of the pairs are the examples of ENC and DEC, the stages and the others are evaluated. -/
theorem blockCipherWorkedExamples : Obligations.BlockCipherWorkedExamples := by
  refine ⟨?stages, encrypt_example, decrypt_example, ?literal, ?second⟩
  all_goals decide +kernel

/-- Settles O35: the two directions undo each other. -/
theorem encryptIsABijection : Obligations.EncryptIsABijection := by
  intro t hundoes key
  have hleft : Function.LeftInverse (fun c => decrypt t c key) fun b => encrypt t b key :=
    fun b => decrypt_encrypt hundoes b key
  have hright : Function.RightInverse (fun c => decrypt t c key) fun b => encrypt t b key :=
    fun c => encrypt_decrypt hundoes c key
  exact ⟨⟨hleft.injective, hright.surjective⟩, ⟨hright.injective, hleft.surjective⟩,
    fun b c => ⟨fun h => h ▸ hleft b, fun h => h ▸ hright c⟩⟩

end Sys2Proof.Proofs
end

section
/-! PROOFS. What an access may set in ERR, the lock-out and its end (spec/60_exceptions.md rules R236 to R240). -/

namespace Sys2Proof.Machine

/-! ### Bits of ERR that rise -/

/-- Some bit of ERR is 0 before and 1 after. -/
def ErrRises (s t : State) : Prop := ∃ c, s.err.getLsbD c = false ∧ t.err.getLsbD c = true

theorem not_errRises {s t : State} (h : ∀ c, t.err.getLsbD c = true → s.err.getLsbD c = true) :
    ¬ErrRises s t := by
  rintro ⟨c, h0, h1⟩
  exact absurd (h0.symm.trans (h c h1)) (by decide)

theorem not_errRises_of_eq {s t : State} (h : t.err = s.err) : ¬ErrRises s t :=
  not_errRises fun _ hc => h ▸ hc

/-- SEARCH while a scan runs is the one command that sets a bit of ERR (R193, R220). -/
theorem ExecCase.raises {s t : State} {i : Instr} (hc : ExecCase s i t) (hrise : ErrRises s t) :
    ∃ e, t = raiseError e s := by
  cases hc with
  | busy he hb => exact ⟨.busy, rfl⟩
  | srst => exact absurd hrise (not_errRises (by simp))
  | _ => exact absurd hrise (not_errRises_of_eq rfl)

/-- A host write that sets a bit of ERR raises one error and does nothing else (R236, R239). -/
theorem WriteCase.raises {s t : State} {off : Offset} {v : Word} (hc : WriteCase s off v t)
    (hrise : ErrRises s t) : ∃ e, t = raiseError e s := by
  cases hc with
  | raised e => exact ⟨e, rfl⟩
  | command ht i hd hc => exact hc.raises hrise
  | acknowledged ht =>
    refine absurd hrise (not_errRises fun c hset => ?_)
    rw [acknowledgeErrors_err, getLsbD_clearOnes, Bool.and_eq_true] at hset
    exact hset.1
  | _ => exact absurd hrise (not_errRises_of_eq rfl)

/-- A host read that sets a bit of ERR raises ACCESS and does nothing else (R79). -/
theorem memRead_raises {off : Offset} {s : State} (hrise : ErrRises s (memRead off s).2) :
    (memRead off s).2 = raiseError .access s := by
  rcases memRead_cases off s with hsame | hraised
  · exact absurd hrise (not_errRises_of_eq (congrArg State.err hsame))
  · rw [hraised]

/-- The codes of R230 are the four bit numbers of ERR (R32). -/
theorem errorCode_lt (e : ErrorCause) : errorCode e < 4 := by cases e <;> decide

/-! ### The lock-out -/

/-- STATUS.ERRANY is 1 exactly while the lock-out holds (R31, R238). -/
theorem errAnyBit_of_locked {s : State} (he : s.err ≠ 0) : errAnyBit (statusWord s) = true := by
  obtain ⟨-, -, hany, -⟩ := statusWord_fields s
  rw [hany, errAny_of_ne_zero he]

/-- ABORT neither reads nor writes ERR (R220). -/
theorem exec_abort_of_err (s : State) (e : BitVec 4) :
    ∃ t, exec .abort { s with err := e } = .next t ∧ exec .abort s = .next { t with err := s.err } := by
  by_cases hb : s.sbusy = true
  · exact ⟨_, exec_abort_stops (s := { s with err := e }) hb, exec_abort_stops hb⟩
  · have hidle := Bool.eq_false_of_not_eq_true hb
    exact ⟨_, exec_abort_idle (s := { s with err := e }) hidle, exec_abort_idle hidle⟩

/-- Acknowledging every set bit leaves ERR = 0 and changes nothing else (R240). -/
theorem acknowledgeErrors_all {s : State} {v : Word} (h : s.err &&& ~~~v.setWidth 4 = 0) :
    acknowledgeErrors v s = { s with err := 0 } := by
  rw [acknowledgeErrors, clearOnes, h]

end Sys2Proof.Machine

namespace Sys2Proof.Proofs
open Sys2Proof Sys2Proof.Machine

/-- Settles O21: the state is that of one raised error, whose code is the bit. -/
theorem errorsArePrecise : Obligations.ErrorsArePrecise := by
  intro s t off v haccess hrise
  obtain ⟨e, rfl⟩ : ∃ e, t = raiseError e s := by
    rcases haccess with hwrite | rfl
    · exact (memWrite_cases hwrite).raises hrise
    · exact ⟨.access, memRead_raises hrise⟩
  exact ⟨errorCode e, errorCode_lt e, rfl⟩

/-- Settles O15. -/
theorem lockOutDropsFourCommands : Obligations.LockOutDropsFourCommands := by
  intro s he
  refine ⟨exec_locked he (by simp), exec_locked he (by simp), exec_locked he (by simp), exec_locked he (by simp),
    errAnyBit_of_locked he, fun i hi => ?_, rfl⟩
  obtain rfl | rfl : i = .nop ∨ i = .abort := by simpa using hi
  · exact ⟨_, exec_nop _, exec_nop s⟩
  · exact exec_abort_of_err s 0

/-- Settles O23: the acknowledged state has ERR = 0, where ENC runs and leaves ERR. -/
theorem acknowledgingEndsTheLockOut : Obligations.AcknowledgingEndsTheLockOut := by
  intro s v hall
  refine ⟨acknowledgeErrors v s, memWrite_regOffset .err v s, acknowledgeErrors_all hall, ?_⟩
  rw [acknowledgeErrors_all hall]
  exact exec_enc_runs (s := { s with err := 0 }) rfl

end Sys2Proof.Proofs
end

section
/-! PROOFS. Operand words too wide for their registers, in the host's programs (spec/60_exceptions.md rules R231, R238;
spec/70_reset_and_hazards.md rules R265, R267; spec/45_key_search.md rule R210). -/

namespace Sys2Proof.Machine

/-! ### WIDTH -/

/-- What a write of the word to a register of `w` bits adds to ERR (R231). -/
def widthError (w : Nat) (v : Word) : BitVec 4 := if tooWide w v then errorBit .width else 0

theorem widthError_of_wide {w : Nat} {v : Word} (h : 2 ^ w ≤ v.toNat) : widthError w v = 1 :=
  if_pos (tooWide_iff.2 h)

theorem widthError_cases (w : Nat) (v : Word) : widthError w v = 0 ∨ widthError w v = 1 := by
  unfold widthError
  split
  · exact .inr rfl
  · exact .inl rfl

/-- Two operands of which at least one is too wide add WIDTH and no other bit. -/
theorem widthError_or_widthError {w x : Nat} {v y : Word} (h : 2 ^ w ≤ v.toNat ∨ 2 ^ x ≤ y.toNat) :
    0 ||| widthError w v ||| widthError x y = 1 := by
  rcases h with h | h
  · rw [widthError_of_wide h]
    rcases widthError_cases x y with hy | hy <;> rw [hy] <;> rfl
  · rw [widthError_of_wide h]
    rcases widthError_cases w v with hv | hv <;> rw [hv] <;> rfl

/-! ### Facts that a call keeps -/

/-- The scanner's turns and the acknowledgement of errors keep `K`. -/
structure CallStable (K : State → Prop) : Prop where
  turns : TurnStable K
  acknowledged : ∀ {s : State} (v : Word), K s → K (acknowledgeErrors v s)

/-- The results of the engine: the subkeys and DOUT. -/
def EngineResults (k1 k2 dout : Block) (s : State) : Prop := s.k1 = k1 ∧ s.k2 = k2 ∧ s.dout = dout

/-- Neither the scanner nor the acknowledgement touches the engine's results (R208, R240). -/
theorem engineResults_stable (k1 k2 dout : Block) : CallStable (EngineResults k1 k2 dout) where
  turns :=
    { turn := fun hc hs => by
        obtain ⟨-, -, -, -, hdout, hk1, hk2, -⟩ := hc.keeps_engine
        rwa [EngineResults, hdout, hk1, hk2]
      port := fun _ hs => hs }
  acknowledged _ hs := hs

/-- No scan runs, and the result sequence is `keys`. -/
def IdleResults (keys : List Key) (s : State) : Prop := s.sbusy = false ∧ matchList s = keys

/-- With no scan running the scanner's turns change nothing (R250). -/
theorem idleResults_stable (keys : List Key) : CallStable (IdleResults keys) where
  turns :=
    { turn := fun hc hs => by
        cases hc with
        | idle => exact hs
        | missed hbusy => exact absurd (hs.1.symm.trans hbusy) (by decide)
        | matched hbusy => exact absurd (hs.1.symm.trans hbusy) (by decide)
      port := fun _ hs => hs }
  acknowledged _ hs := hs

/-- A point of a call at which ERR is `e` and `K` holds. -/
structure Erring (K : State → Prop) (e : BitVec 4) (s : State) : Prop where
  err : s.err = e
  kept : K s

theorem CallStable.erring {K : State → Prop} (hK : CallStable K) (e : BitVec 4) : TurnStable (Erring K e) where
  turn hc hs := ⟨(errIs_stable e).turn hc hs.err, hK.turns.turn hc hs.kept⟩
  port r hs := ⟨hs.err, hK.turns.port r hs.kept⟩

/-- The write of an operand is refused and raises WIDTH, or stores it and leaves ERR (R231). -/
theorem Erring.operand {K : State → Prop} {e : BitVec 4} {s stored : State} (h : Erring K e s) (w : Nat)
    (v : Word) (hrefused : K (raiseError .width s)) (hstored : K stored) (herr : stored.err = s.err) :
    Erring K (e ||| widthError w v) (if tooWide w v then raiseError .width s else stored) := by
  unfold widthError
  split
  · exact ⟨by rw [raiseError_err, h.err], hrefused⟩
  · exact ⟨by rw [herr, h.err, BitVec.ofNat_eq_ofNat, BitVec.or_zero], hstored⟩

/-! ### The writes of the calls -/

section
variable {k1 k2 dout : Block} {keys : List Key} {e : BitVec 4} {s t : State} {v : Word}

theorem Erring.writeKey (h : Erring (EngineResults k1 k2 dout) e s) (hw : writeReg .key v s = .next t) :
    Erring (EngineResults k1 k2 dout) (e ||| widthError 10 v) t := by
  cases hw
  exact h.operand 10 v h.kept h.kept rfl

theorem Erring.writeDin (h : Erring (EngineResults k1 k2 dout) e s) (hw : writeReg .din v s = .next t) :
    Erring (EngineResults k1 k2 dout) (e ||| widthError 8 v) t := by
  cases hw
  exact h.operand 8 v h.kept h.kept rfl

theorem Erring.writeSpt (h : Erring (IdleResults keys) e s) (hw : writeReg .spt v s = .next t) :
    Erring (IdleResults keys) (e ||| widthError 8 v) t := by
  cases hw
  rw [Machine.writeSpt, if_neg (by simp [h.kept.1])]
  exact h.operand 8 v h.kept h.kept rfl

theorem Erring.writeSct (h : Erring (IdleResults keys) e s) (hw : writeReg .sct v s = .next t) :
    Erring (IdleResults keys) (e ||| widthError 8 v) t := by
  cases hw
  rw [Machine.writeSct, if_neg (by simp [h.kept.1])]
  exact h.operand 8 v h.kept h.kept rfl

theorem Erring.writeIp (h : Erring (IdleResults keys) e s) (hw : writeReg .ip v s = .next t) :
    Erring (IdleResults keys) e t := by
  cases hw
  exact ⟨h.err, h.kept⟩

end

/-! ### The end of a call after a refused operand -/

/-- What a call with an operand too wide answers: WidthMismatch, acknowledged, with `K` kept (R231, R265). -/
def WidthReported {α : Type} (K : State → Prop) (t : State) (a : Checked α) : Prop :=
  a = .error .widthMismatch ∧ t.err = 0 ∧ K t

section
variable {α : Type} {K : State → Prop} {turns : Nat → Nat} {s : State}

/-- The line "fails" of R108 where ERR is WIDTH. -/
theorem yields_failCall_of_width (hK : CallStable K) (hs : Erring K 1 s) :
    Yields turns (failCall (α := α)) s (WidthReported K) := by
  refine .read fun u hu => .write fun v t hv hw => .done ?_
  cases hw
  have hread := (hK.erring 1).turns hu hs
  have hwrite := (hK.erring 1).turns hv hread
  refine ⟨?_, ?_, hK.acknowledged 0xF hwrite.kept⟩
  · rw [readReg, setWidth_setWidth_word _ (by decide), hread.err]
    rfl
  · rw [acknowledgeErrors_err, hwrite.err]
    rfl

/-- The command is dropped and the status check fails, whatever flag it asks for (R238). -/
theorem yields_checkedCommand_of_width (hK : CallStable K) {i : Instr}
    (hi : i = .keygen ∨ i = .enc ∨ i = .dec ∨ i = .search) (flag : Word → Bool)
    (passed : Word → HostProgram (Checked α)) (hs : Erring K 1 s) :
    Yields turns (cmdThen i <| rdThen .status fun status =>
      if flag status && !errAnyBit status then passed status else failCall) s (WidthReported K) := by
  have hlocked {u : State} (hu : Erring K 1 u) : u.err ≠ 0 := by rw [hu.err]; decide
  refine .command fun u t hu hexec => .read fun v hv => ?_
  have hcommand := (hK.erring 1).turns hu hs
  cases (exec_locked (hlocked hcommand) hi).symm.trans hexec
  have hstatus := (hK.erring 1).turns hv hcommand
  have hcheck : (flag (readReg v .status) && !errAnyBit (readReg v .status)) ≠ true := by
    simp [readReg, errAnyBit_of_locked (hlocked hstatus)]
  rw [if_neg hcheck]
  exact yields_failCall_of_width hK hstatus

/-! ### The calls -/

/-- `generateSubkeys` on a key too wide. -/
theorem yields_subkeysCall_wide (herr : s.err = 0) {k : Word} (hk : 2 ^ 10 ≤ k.toNat) :
    Yields turns (subkeysCall k) s (WidthReported (EngineResults s.k1 s.k2 s.dout)) := by
  have hK := engineResults_stable s.k1 s.k2 s.dout
  refine .write fun u t hu hw => yields_checkedCommand_of_width hK (by simp) kvalidBit _ ?_
  have hkey := ((hK.erring 0).turns hu ⟨herr, rfl, rfl, rfl⟩).writeKey hw
  rwa [widthError_of_wide hk] at hkey

/-- `encryptBlock` and `decryptBlock` on a key or a block too wide. -/
theorem yields_blockCall_wide (herr : s.err = 0) {x k : Word} (hwide : 2 ^ 10 ≤ k.toNat ∨ 2 ^ 8 ≤ x.toNat)
    {i : Instr} (hi : i = .enc ∨ i = .dec) (op : BitVec 2) :
    Yields turns (blockCall i op x k) s (WidthReported (EngineResults s.k1 s.k2 s.dout)) := by
  have hK := engineResults_stable s.k1 s.k2 s.dout
  refine .write fun u1 t1 hu1 hkey => .write fun u2 t2 hu2 hdin =>
    yields_checkedCommand_of_width hK (by tauto) (fun status => lastopField status == op) _ ?_
  have h1 := ((hK.erring 0).turns hu1 ⟨herr, rfl, rfl, rfl⟩).writeKey hkey
  have h2 := ((hK.erring _).turns hu2 h1).writeDin hdin
  rwa [widthError_or_widthError hwide] at h2

/-- `bruteForce` on a plaintext or a ciphertext too wide, with no scan running: none begins (R210). -/
theorem yields_searchCall_wide (herr : s.err = 0) (hb : s.sbusy = false) {p c : Word}
    (hwide : 2 ^ 8 ≤ p.toNat ∨ 2 ^ 8 ≤ c.toNat) (wait : Wait) (polls : Nat) :
    Yields turns (searchCall wait polls p c) s (WidthReported (IdleResults (matchList s))) := by
  have hK := idleResults_stable (matchList s)
  refine .write fun u1 t1 hu1 hip => .write fun u2 t2 hu2 hspt => .write fun u3 t3 hu3 hsct =>
    yields_checkedCommand_of_width hK (by simp) searchBits _ ?_
  have h1 := ((hK.erring 0).turns hu1 ⟨herr, hb, rfl⟩).writeIp hip
  have h2 := ((hK.erring 0).turns hu2 h1).writeSpt hspt
  have h3 := ((hK.erring _).turns hu3 h2).writeSct hsct
  rwa [widthError_or_widthError hwide] at h3

end

/-! ### A block that does not fit DIN, whatever ERR holds -/

/-- The points of the sequence after the refused write: ERR has WIDTH, and DIN and DOUT are as in `s0`. -/
structure DinRefused (s0 s : State) : Prop where
  err : s.err = s0.err ||| 0b0001
  din : s.din = s0.din
  dout : s.dout = s0.dout

theorem dinRefused_stable (s0 : State) : TurnStable (DinRefused s0) where
  turn hc hs := by
    obtain ⟨-, herr, -, hdin, hdout, -⟩ := hc.keeps_engine
    exact ⟨herr.trans hs.err, hdin.trans hs.din, hdout.trans hs.dout⟩
  port _ hs := ⟨hs.err, hs.din, hs.dout⟩

theorem DinRefused.locked {s0 s : State} (h : DinRefused s0 s) : s.err ≠ 0 := by
  have hwidth : ∀ e : BitVec 4, e ||| 0b0001 ≠ 0 := by decide
  rw [h.err]
  exact hwidth s0.err

/-- A block too wide for DIN is not truncated into it (R267). -/
theorem dinRefused_of_write {s0 s t : State} {v : Word} (hv : 2 ^ 8 ≤ v.toNat) (hs : engineKept s0 s)
    (hw : writeReg .din v s = .next t) : DinRefused s0 t := by
  cases (writeReg_din_wide hv s).symm.trans hw
  obtain ⟨-, herr, -, hdin, hdout, -⟩ := hs
  exact ⟨by rw [raiseError_err, herr]; rfl, hdin, hdout⟩

end Sys2Proof.Machine

namespace Sys2Proof.Proofs
open Sys2Proof Sys2Proof.Machine

/-- Settles O54: the writes leave ERR = WIDTH, and each call's command and check then fail with it. -/
theorem wideOperandsReportWidthMismatch : Obligations.WideOperandsReportWidthMismatch := by
  intro s turns wait polls x k p c herr hsafe
  refine ⟨fun hk => ?subkeys, fun hwide i op hi => ?block, fun hb hwide => ?search⟩
  case subkeys =>
    obtain ⟨t, _, hrun, rfl, ht, hk1, hk2, -⟩ := yields_subkeysCall_wide herr hk hsafe
    exact ⟨t, hrun, ht, hk1, hk2⟩
  case block =>
    obtain ⟨t, _, hrun, rfl, ht, -, -, hdout⟩ := yields_blockCall_wide herr hwide hi op hsafe
    exact ⟨t, hrun, ht, hdout⟩
  case search =>
    obtain ⟨t, _, hrun, rfl, ht, hidle, hlist⟩ := yields_searchCall_wide herr hb hwide wait polls hsafe
    exact ⟨t, hrun, ht, hidle, hlist⟩

/-- Settles O57: the refused write locks ENC out, so every later access meets DIN and DOUT as they were. -/
theorem wideOperandLocksOutEnc : Obligations.WideOperandLocksOutEnc := by
  intro s turns v hv hsafe
  have hyields : Yields turns (wrThen .din v <| cmdThen .enc <| rdThen .status fun st => rdThen .dout fun d =>
      .done (st, d)) s fun t a => DinRefused s t ∧ errAnyBit a.1 = true ∧ a.2 = s.dout.setWidth 32 := by
    refine .write fun u1 t1 hu1 hw => .command fun u2 t2 hu2 hexec => .read fun u3 hu3 => .read fun u4 hu4 =>
      .done ?_
    have h2 := (dinRefused_stable s).turns hu2 (dinRefused_of_write hv hu1.engineKept hw)
    cases (exec_locked h2.locked (.inr (.inl rfl))).symm.trans hexec
    have h3 := (dinRefused_stable s).turns hu3 h2
    have h4 := (dinRefused_stable s).turns hu4 h3
    exact ⟨h4, errAnyBit_of_locked h3.locked, congrArg (BitVec.setWidth 32) h4.dout⟩
  obtain ⟨t, ⟨status, _⟩, hrun, ht, hany, rfl⟩ := hyields hsafe
  exact ⟨t, status, hrun, hany, ht.din, ht.err⟩

end Sys2Proof.Proofs
end

section
/-! PROOFS. A scan that no event ends completes, however the events to come interleave with its trials
(spec/70_reset_and_hazards.md rule R281; spec/45_key_search.md rules R193, R205, R206). -/

namespace Sys2Proof.Machine

/-! ### Runs -/

theorem run_of_step {s u : State} (h : step s = .next u) (n : Nat) :
    Sys2Proof.core.run (n + 1) s = Sys2Proof.core.run n u := by
  simp only [Host.Core.run, core, h]

theorem run_add {m n : Nat} {s u : State} (h : Sys2Proof.core.run m s = .next u) :
    Sys2Proof.core.run (m + n) s = Sys2Proof.core.run n u := by
  induction m generalizing s with
  | zero => cases h; rw [Nat.zero_add]
  | succ m ih =>
    obtain ⟨v, hstep, hrest⟩ := run_succ h
    rw [Nat.add_right_comm, run_of_step hstep, ih hrest]

/-! ### A scan that runs, and one that is done -/

/-- A scan of the pair `(p, c)` runs, on the configuration `cfg`. -/
structure RunningScan (cfg : Config) (p c : Block) (s : State) : Prop where
  inv : StateInv s
  cfg_eq : s.cfg = cfg
  spt : s.spt = p
  sct : s.sct = c
  busy : s.sbusy = true

/-- The most recent scan is done and has found `keys`. -/
structure CompletedScan (keys : List Key) (s : State) : Prop where
  inv : StateInv s
  done : s.sdone = true
  result : matchList s = keys

/-- A scan that is done does not run, and its counters are at their ends (R50 items 3, 4 and 6). -/
theorem CompletedScan.ends {keys : List Key} {s : State} (h : CompletedScan keys s) :
    s.sbusy = false ∧ s.progress.toNat = 100 ∧ s.kcnt.toNat = 1024 := by
  refine ⟨?_, h.inv.scan.progress_done.2 h.done, h.inv.scan.done_kcnt h.done⟩
  by_contra hbusy
  have hnot := h.inv.scan.busy_not_done (Bool.eq_true_of_not_eq_false hbusy)
  exact absurd (hnot.symm.trans h.done) (by decide)

section
variable {cfg : Config} {p c : Block} {s t : State}

theorem RunningScan.withPort (h : RunningScan cfg p c s) (es : List Event) (r : Response) :
    RunningScan cfg p c { s with schedule := es, response := r } :=
  ⟨h.inv.withPort es r, h.cfg_eq, h.spt, h.sct, h.busy⟩

/-- A trial tests one more key, or completes the scan with `searchKeys` of its pair (R196, R199, R205). -/
theorem RunningScan.turn (h : RunningScan cfg p c s) (hc : TurnCase s t) :
    CompletedScan (searchKeys cfg.tables p c) t
      ∨ RunningScan cfg p c t ∧ t.kcnt.toNat = s.kcnt.toNat + 1 := by
  obtain ⟨-, hspt, hsct⟩ := hc.operands_kept
  obtain ⟨hcfg, -⟩ := hc.cfg_and_schedule
  have hinv := hc.keeps_inv h.inv
  rcases hc.active (.inl h.busy) with hb | hdone
  · obtain ⟨-, hkcnt, -⟩ := hc.counts_of_busy h.busy
    exact .inr ⟨⟨hinv, hcfg.trans h.cfg_eq, hspt.trans h.spt, hsct.trans h.sct, hb⟩, hkcnt⟩
  · refine .inl ⟨hinv, hdone, ?_⟩
    rw [hc.matchList_of_busy h.busy h.inv.results, hinv.scan.done_kcnt hdone, hcfg, hspt, hsct, h.cfg_eq, h.spt,
      h.sct, searchKeys]

/-- A host write that ends no scan leaves a running one as it is: its pair cannot be written and SEARCH raises
BUSY (R27, R193). -/
theorem RunningScan.write (h : RunningScan cfg p c s) {off : Offset} {v : Word} (hc : WriteCase s off v t)
    (he : endsNoScan (.write off v) = true) : RunningScan cfg p c t ∧ t.kcnt = s.kcnt := by
  have hinv := hc.keeps_inv h.inv
  have hsame : t.cfg = s.cfg ∧ sameScanner s t := by
    refine ⟨hc.cfg_and_schedule.1, ?_⟩
    cases hc with
    | command ht i hd hc =>
      obtain ⟨habort, hsrst⟩ : i ≠ .abort ∧ i ≠ .srst := by simpa [endsNoScan, ht, hd] using he
      cases hc with
      | search _ hidle => exact absurd (hidle.symm.trans h.busy) (by decide)
      | abort => exact absurd rfl habort
      | srst => exact absurd rfl hsrst
      | _ => exact sameScanner_refl s
    | spt _ hidle => exact absurd (hidle.symm.trans h.busy) (by decide)
    | sct _ hidle => exact absurd (hidle.symm.trans h.busy) (by decide)
    | _ => exact sameScanner_refl s
  obtain ⟨hcfg, hspt, hsct, hkcnt, -, -, hb, -⟩ := hsame
  exact ⟨⟨hinv, hcfg.trans h.cfg_eq, hspt.trans h.spt, hsct.trans h.sct, hb.trans h.busy⟩, hkcnt⟩

/-- An event that ends no scan completes a running one, as a trial, or leaves it running. -/
theorem RunningScan.event (h : RunningScan cfg p c s) {e : Event} (hc : EventCase s e t)
    (he : endsNoScan e = true) :
    CompletedScan (searchKeys cfg.tables p c) t
      ∨ RunningScan cfg p c t ∧ s.kcnt.toNat ≤ t.kcnt.toNat := by
  cases hc with
  | read off w => exact .inr ⟨h.withPort _ _, Nat.le_refl _⟩
  | readBad off =>
    have hinv := h.inv.frame (t := raiseError .access s) rfl (sameEngine_refl s) (sameScanner_refl s)
    exact .inr ⟨⟨hinv.withPort _ _, h.cfg_eq, h.spt, h.sct, h.busy⟩, Nat.le_refl _⟩
  | write off v hc =>
    obtain ⟨ht, hkcnt⟩ := (h.withPort s.schedule .written).write hc he
    exact .inr ⟨ht, (congrArg BitVec.toNat hkcnt).ge⟩
  | reset => cases he
  | trial hc => exact (h.turn hc).imp_right fun ⟨ht, hkcnt⟩ => ⟨ht, by omega⟩

/-! ### The steps of a running scan -/

/-- How many steps a running scan can still take: the events to come, and the keys to test. -/
def stepsLeft (s : State) : Nat := s.schedule.length + (1024 - s.kcnt.toNat)

/-- A step of a running scan completes it, or it runs on with fewer steps to take: an event is gone, or with none
left a key is tested. -/
theorem RunningScan.step (h : RunningScan cfg p c s) (hes : ∀ e ∈ s.schedule, endsNoScan e = true) :
    ∃ t, Machine.step s = .next t ∧ t.schedule = s.schedule.tail
      ∧ (CompletedScan (searchKeys cfg.tables p c) t ∨ RunningScan cfg p c t ∧ stepsLeft t < stepsLeft s) := by
  obtain ⟨t, hstep⟩ := runs_of_trial_in_range h.inv.scan.trial_in_range
  have hc := step_cases hstep
  obtain ⟨-, htail⟩ := hc.cfg_and_schedule
  refine ⟨t, hstep, htail, ?_⟩
  cases hc with
  | silent hs hc =>
    refine ((h.withPort [] .none).turn hc).imp_right fun ⟨ht, hkcnt⟩ => ⟨ht, ?_⟩
    have hk := h.inv.scan.busy_kcnt h.busy
    simp only [stepsLeft, htail, hs, List.tail_nil, hkcnt]
    omega
  | event e rest hs hc =>
    have he := hes e (hs ▸ List.mem_cons_self)
    refine ((h.withPort rest .none).event hc he).imp_right fun ⟨ht, hkcnt⟩ => ⟨ht, ?_⟩
    dsimp only at hkcnt
    simp only [stepsLeft, htail, hs, List.tail_cons, List.length_cons]
    omega

/-- A scan that no event ends completes within the steps it can take. -/
theorem RunningScan.completes {m : Nat} (h : RunningScan cfg p c s) (hes : ∀ e ∈ s.schedule, endsNoScan e = true)
    (hm : stepsLeft s ≤ m) :
    ∃ n ≤ m, ∃ t, Sys2Proof.core.run n s = .next t ∧ CompletedScan (searchKeys cfg.tables p c) t
      ∧ ∀ e ∈ t.schedule, e ∈ s.schedule := by
  induction m generalizing s with
  | zero =>
    have hk := h.inv.scan.busy_kcnt h.busy
    unfold stepsLeft at hm
    omega
  | succ m ih =>
    obtain ⟨u, hstep, htail, hu⟩ := h.step hes
    have hlater : ∀ e ∈ u.schedule, e ∈ s.schedule := fun e he => List.mem_of_mem_tail (htail ▸ he)
    rcases hu with hdone | ⟨hrunning, hfewer⟩
    · exact ⟨1, by omega, u, run_of_step hstep 0, hdone, hlater⟩
    · obtain ⟨n, hn, t, hrun, ht, hsub⟩ := ih hrunning (fun e he => hes e (hlater e he)) (by omega)
      exact ⟨n + 1, by omega, t, (run_of_step hstep n).trans hrun, ht, fun e he => hlater e (hsub e he)⟩

end

/-! ### After the scan -/

section
variable {keys : List Key} {s t : State}

theorem CompletedScan.withPort (h : CompletedScan keys s) (es : List Event) (r : Response) :
    CompletedScan keys { s with schedule := es, response := r } := ⟨h.inv.withPort es r, h.done, h.result⟩

theorem CompletedScan.turn (h : CompletedScan keys s) (hc : TurnCase s t) : CompletedScan keys t := by
  obtain ⟨hidle, -⟩ := h.ends
  cases hc with
  | idle => exact h
  | missed hb => exact absurd (hidle.symm.trans hb) (by decide)
  | matched hb => exact absurd (hidle.symm.trans hb) (by decide)

/-- A command that neither ends nor restarts a scan leaves one that is done (R204). -/
theorem ExecCase.scan_kept {i : Instr} (hc : ExecCase s i t) (hsearch : i ≠ .search) (habort : i ≠ .abort)
    (hsrst : i ≠ .srst) : t.sdone = s.sdone ∧ matchList t = matchList s := by
  cases hc with
  | search => exact absurd rfl hsearch
  | abort => exact absurd rfl habort
  | srst => exact absurd rfl hsrst
  | _ => exact ⟨rfl, rfl⟩

/-- An event that neither ends nor restarts a scan leaves one that is done, also where it writes SPT or SCT (R204). -/
theorem CompletedScan.event (h : CompletedScan keys s) {e : Event} (hc : EventCase s e t)
    (he : leavesScan e = true) : CompletedScan keys t := by
  have hinv := hc.keeps_inv h.inv
  cases hc with
  | write off v hc =>
    cases hc with
    | command ht i hd hc =>
      obtain ⟨⟨hsearch, hsrst⟩, habort, -⟩ : (i ≠ .search ∧ i ≠ .srst) ∧ i ≠ .abort ∧ i ≠ .srst := by
        simpa [leavesScan, keepsResults, endsNoScan, ht, hd] using he
      obtain ⟨hsdone, hlist⟩ := hc.scan_kept hsearch habort hsrst
      exact ⟨hinv, hsdone.trans h.done, hlist.trans h.result⟩
    | _ => exact ⟨hinv, h.done, h.result⟩
  | reset => cases he
  | trial hc => exact h.turn hc
  | _ => exact ⟨hinv, h.done, h.result⟩

theorem CompletedScan.step (h : CompletedScan keys s) (hes : ∀ e ∈ s.schedule, leavesScan e = true) :
    ∃ t, Machine.step s = .next t ∧ CompletedScan keys t ∧ ∀ e ∈ t.schedule, leavesScan e = true := by
  obtain ⟨t, hstep⟩ := runs_of_trial_in_range h.inv.scan.trial_in_range
  have hc := step_cases hstep
  obtain ⟨-, htail⟩ := hc.cfg_and_schedule
  refine ⟨t, hstep, ?_, fun e he => hes e (List.mem_of_mem_tail (htail ▸ he))⟩
  cases hc with
  | silent hs hc => exact (h.withPort [] .none).turn hc
  | event e rest hs hc => exact (h.withPort rest .none).event hc (hes e (hs ▸ List.mem_cons_self))

/-- Along events that neither end nor restart a scan its result stays for good. -/
theorem CompletedScan.run (h : CompletedScan keys s) (hes : ∀ e ∈ s.schedule, leavesScan e = true) (n : Nat) :
    ∃ t, Sys2Proof.core.run n s = .next t ∧ CompletedScan keys t := by
  induction n generalizing s with
  | zero => exact ⟨s, rfl, h⟩
  | succ n ih =>
    obtain ⟨u, hstep, hu, hlater⟩ := h.step hes
    obtain ⟨t, hrun, ht⟩ := ih hu hlater
    exact ⟨t, (run_of_step hstep n).trans hrun, ht⟩

end

/-- SEARCH as the next event, with ERR = 0 and no scan, starts a scan of (SPT, SCT) with all its steps to take
(R192). -/
theorem search_starts_running {s : State} {rest : List Event} (hinv : StateInv s) (herr : s.err = 0)
    (hb : s.sbusy = false) (hs : s.schedule = cmd .search :: rest) :
    ∃ u, step s = .next u ∧ u.schedule = rest ∧ RunningScan s.cfg s.spt s.sct u
      ∧ stepsLeft u = rest.length + 1024 := by
  have hstart := exec_search_starts (s := { s with schedule := rest, response := .written }) herr hb
  have hcmd := runEvent_cmd .search { s with schedule := rest, response := .none }
  exact ⟨_, (step_of_schedule_cons hs).trans (hcmd.trans hstart), rfl,
    ⟨(hinv.withPort rest .written).startScan, rfl, rfl, rfl, rfl⟩, rfl⟩

end Sys2Proof.Machine

namespace Sys2Proof.Proofs
open Sys2Proof Sys2Proof.Machine

/-- Settles O41: each step of the scan uses up an event or tests a key, and only SEARCH can hide a result. -/
theorem everySearchCompletes : Obligations.EverySearchCompletes := by
  intro s rest hinv herr hb hs hes
  obtain ⟨u, hstep, hrest, hrunning, hleft⟩ := search_starts_running hinv herr hb hs
  obtain ⟨n, hn, t, hrun, hdone, hlater⟩ := hrunning.completes (hrest ▸ hes) hleft.le
  have hfirst : Sys2Proof.core.run (n + 1) s = .next t := (run_of_step hstep n).trans hrun
  refine ⟨⟨n + 1, by omega, t, hfirst, hdone.done, ?_⟩, fun hleaves m hm => ?_⟩
  · obtain ⟨hidle, hprogress, hkcnt⟩ := hdone.ends
    exact ⟨hidle, hprogress, hkcnt, hdone.result⟩
  · have hkeeps : ∀ e ∈ t.schedule, leavesScan e = true := fun e he => hleaves e (hrest ▸ hlater e he)
    obtain ⟨v, hrun', hv⟩ := hdone.run hkeeps (m - (n + 1))
    obtain ⟨hidle, hprogress, hkcnt⟩ := hv.ends
    have hall : Sys2Proof.core.run m s = .next v := by
      rw [← Nat.add_sub_of_le (show n + 1 ≤ m by omega), run_add hfirst, hrun']
    exact ⟨v, hall, hv.done, hidle, hprogress, hkcnt, hv.result⟩

end Sys2Proof.Proofs
end
